-- ==== Sys2Proof/Word.lean ====
section
/-! DEFINITION. The word types of the record: unsigned values of the widths 00_scope.md R8 fixes. -/

namespace Sys2Proof

/-- An 8-bit value: the seven general registers and the opcode (10_state.md R16, R31). -/
abbrev Byte := BitVec 8

/-- A 16-bit value: the stack pointer and the program counter (10_state.md R20, R21). -/
abbrev Word16 := BitVec 16

/-- A 64-bit value: the cycle counter (10_state.md R22). -/
abbrev Word64 := BitVec 64

end Sys2Proof
end

