-- ==== Sys2Proof/Syntax.lean ====
section
/-! DEFINITION. The instructions: the one row of spec/opcode_table.json. -/

namespace Sys2Proof

/-- The instruction set. DAA has no explicit operands and no immediates (30_encoding.md R51), and there is no other
instruction (R55). -/
inductive Instr where
  /-- Decimal adjust accumulator (40_daa.md R57). -/
  | daa
  deriving DecidableEq, Repr

end Sys2Proof
end

