-- ==== Sys2Proof/WellFormed.lean ====
section
/-! DEFINITION. Well-formedness of instructions. No encoding is illegal or reserved and DAA has no operand fields
(30_encoding.md R51, R52), so there is no check an instruction could fail. Ill-formed raw words are refused by the decoder
(Decode.lean). -/

namespace Sys2Proof

/-- Every instruction is well formed. -/
def Instr.wellFormed : Instr → Bool
  | .daa => true

end Sys2Proof
end

