-- ==== Sys2Proof/Decode.lean ====
section
/-! DEFINITION. The decoder of format OP8 and, after it, the encoder (30_encoding.md). -/

namespace Sys2Proof

/-- The mask of an instruction's row of the opcode table: the bits of `opcode` the row fixes (30_encoding.md R50). -/
def Instr.mask : Instr → Byte
  | .daa => 0x00

/-- The match of an instruction's row: the values of the bits its mask fixes (30_encoding.md R50). -/
def Instr.matchBits : Instr → Byte
  | .daa => 0x00

/-- The instruction an opcode byte selects. Decoding is constant: every value selects DAA (30_encoding.md R50, R52;
decision D3, log entry 7). It is total: no opcode is refused. -/
def decodeOpcode (_opcode : Byte) : Instr := .daa

/-- Why a raw word is no instruction. -/
inductive DecodeError where
  /-- The word is not a value of OP8's single 8-bit field (30_encoding.md R49, R53). Safe: the record's `opcode` is always
  one byte, so no step meets this. -/
  | notOneOpcodeByte
  deriving DecidableEq, Repr

/-- Decode a raw number given as the `nbits` bits of an instruction. A number that does not fit the one opcode byte is
refused by name. DESIGN CHOICE (log entry 8; safe). -/
def decodeWord (nbits w : Nat) : Except DecodeError Instr :=
  if nbits ≤ 8 ∧ w < 2 ^ nbits then .ok (decodeOpcode (BitVec.ofNat 8 w)) else .error .notOneOpcodeByte

/-- The decoder as the opcode table numbers an instruction's bits. -/
def decodeTableWord (nbits w : Nat) : Option Instr :=
  match decodeWord nbits w with
  | .ok i => some i
  | .error _ => none

/-- The opcode byte of an instruction: the fixed bits of its row, and the bits the row leaves open taken from `unfixed`
(30_encoding.md R50: DAA fixes none, so `unfixed` is the whole byte). DESIGN CHOICE (log entry 8; safe): no byte is chosen
as the one encoding, since every byte is one. -/
def encode (i : Instr) (unfixed : Byte) : Byte :=
  i.matchBits ||| (unfixed &&& ~~~i.mask)

end Sys2Proof
end

