-- ==== Sys2Proof/Config.lean ====
section
/-! DEFINITION. The one open parameter of the spec. All widths and constants are fixed by it (00_scope.md R8, R10), and no
result is left undefined (60_exceptions.md R80), so there is no other field and no free value here. -/

namespace Sys2Proof

/-- The type of the `id` field (00_scope.md R9, decision D4). DESIGN CHOICE (log entry 1; safe): the transform is written
for every type `Id`; the closed machine takes strings, the instance 10_state.md R33 names. -/
abbrev Config.Id := String

end Sys2Proof
end

