-- ==== Sys2Proof/Machine/State.lean ====
section
/-! DEFINITION. The record the block reads and writes (10_state.md), the reasons a step can stop, and the record after
reset. The record is the whole state: there is no memory, no control register and no hidden state (R36 to R38). -/

namespace Sys2Proof.Machine

/-- The five independent flags (10_state.md R23). They have no bit positions (R29). -/
structure CpuFlags where
  sign : Bool
  zero : Bool
  auxCarry : Bool
  parity : Bool
  carry : Bool
  deriving DecidableEq, Repr

/-- The state part of the record (10_state.md R16): seven general registers (R17, 90_conflicts.md C1), the stack pointer,
the program counter, the cycle counter and the flags. -/
structure CpuState where
  a : Byte
  b : Byte
  c : Byte
  d : Byte
  e : Byte
  h : Byte
  l : Byte
  stackPointer : Word16
  programCounter : Word16
  cycles : Word64
  flags : CpuFlags
  deriving DecidableEq, Repr

/-- The record of one invocation, for any type of `id` (10_state.md R15; 00_scope.md R9). -/
structure Cpu (Id : Type) where
  state : CpuState
  id : Id
  opcode : Byte
  deriving DecidableEq, Repr

/-- The machine's state: a record whose `id` is of the configured type. One step replaces an invocation's input record by its
output record (20_memory.md R42; log entry 4). -/
structure State extends Cpu Config.Id where
  deriving DecidableEq, Repr

/-- The general registers by name (10_state.md R17). -/
inductive Reg where
  | a | b | c | d | e | h | l
  deriving DecidableEq, Repr

/-- The flags by name (10_state.md R23). -/
inductive Flag where
  | sign | zero | auxCarry | parity | carry
  deriving DecidableEq, Repr

/-- The reasons a step can fault: none. The block has no exception, trap or fatal path (60_exceptions.md R80, R82), so the
type is empty. Safe: nothing can raise a fault (log entry 5). -/
inductive Fault where
  deriving DecidableEq, Repr

/-- The reasons a step can be refused. -/
inductive Refusal where
  /-- Raised only by an arm of `exec` whose instruction has no meaning yet; there is no such arm, so nothing raises it. Safe:
  a refusal stops the machine (log entry 5). -/
  | notModelled (mnemonic : String)
  deriving DecidableEq, Repr

/-- The record a run starts from where nothing is supplied. DESIGN CHOICE (log entry 2; unsafe): the spec gives no reset value
for any field and no reset input (70_reset_and_hazards.md R94, R95); every field is zero, false or the empty string. -/
def State.reset : State where
  state :=
    { a := 0, b := 0, c := 0, d := 0, e := 0, h := 0, l := 0
      stackPointer := 0, programCounter := 0, cycles := 0
      flags := { sign := false, zero := false, auxCarry := false, parity := false, carry := false } }
  id := ""
  opcode := 0

end Sys2Proof.Machine
end

