-- ==== Sys2Proof/Machine/Operands.lean ====
section
/-! DEFINITION. DAA's implicit operands, the two nibbles of the accumulator and the correction (40_daa.md R59 to R61), with
the constants of 00_scope.md R10. -/

namespace Sys2Proof.Machine

/-- The low-nibble correction (00_scope.md R10). -/
def lowCorrectionConstant : Nat := 0x06

/-- The high-nibble correction (00_scope.md R10). -/
def highCorrectionConstant : Nat := 0x60

/-- The nibble threshold: a nibble is too large when it is above this (00_scope.md R10). -/
def nibbleThreshold : Nat := 9

/-- The low-nibble mask (00_scope.md R10). -/
def lowNibbleMask : Byte := 0x0F

/-- The high nibble of a byte (00_scope.md R11; 40_daa.md R59). -/
def msn (v : Byte) : Byte := v >>> 4

/-- The low nibble of a byte (00_scope.md R11; 40_daa.md R59). -/
def lsn (v : Byte) : Byte := v &&& lowNibbleMask

/-- What DAA reads: the implicit source operands (10_state.md R34; 30_encoding.md R51). -/
structure DaaInputs where
  a : Byte
  carry : Bool
  auxCarry : Bool
  cycles : Word64
  deriving DecidableEq, Repr

/-- Read DAA's source operands from a record. -/
def Cpu.daaInputs {Id : Type} (r : Cpu Id) : DaaInputs where
  a := r.state.a
  carry := r.state.flags.carry
  auxCarry := r.state.flags.auxCarry
  cycles := r.state.cycles

/-- The condition of the low correction (40_daa.md R60). -/
def lowCondition (a : Byte) (auxCarry : Bool) : Bool :=
  auxCarry || decide ((lsn a).toNat > nibbleThreshold)

/-- The condition of the high correction, on the input carry and the nibbles of the input accumulator (40_daa.md R61). -/
def highCondition (a : Byte) (carry : Bool) : Bool :=
  carry || decide ((msn a).toNat > nibbleThreshold) ||
    (decide ((msn a).toNat = nibbleThreshold) && decide ((lsn a).toNat > nibbleThreshold))

/-- The correction after step 3 (40_daa.md R60). -/
def lowCorrection (a : Byte) (auxCarry : Bool) : Nat :=
  if lowCondition a auxCarry then lowCorrectionConstant else 0x00

/-- The final correction, after step 4 (40_daa.md R61). The addition is exact (00_scope.md R12). -/
def correction (a : Byte) (carry auxCarry : Bool) : Nat :=
  if highCondition a carry then lowCorrection a auxCarry + highCorrectionConstant else lowCorrection a auxCarry

end Sys2Proof.Machine
end

