-- ==== Sys2Proof/Machine/Flags.lean ====
section
/-! DEFINITION. The five flag computations of DAA (40_daa.md R63 to R67). -/

namespace Sys2Proof.Machine

/-- The number of 1 bits of a byte (00_scope.md R12). -/
def popcount (v : Byte) : Nat := (List.range 8).countP (fun i => v.getLsbD i)

/-- Sign: bit 7 of the result, a bit test (40_daa.md R63; 00_scope.md R12). -/
def signOf (result : Byte) : Bool := result.getLsbD 7

/-- Zero: the result is 0 (40_daa.md R64). -/
def zeroOf (result : Byte) : Bool := decide (result = 0)

/-- Auxiliary carry: the carry out of the low nibble of the correction addition, from the ORIGINAL accumulator
(40_daa.md R65; 90_conflicts.md C2). -/
def auxCarryOf (a : Byte) (corr : Nat) : Bool :=
  decide ((a &&& lowNibbleMask).toNat + (corr &&& lowNibbleMask.toNat) > lowNibbleMask.toNat)

/-- Parity: the result has an even number of 1 bits (40_daa.md R66). -/
def parityOf (result : Byte) : Bool := decide (popcount result % 2 = 0)

/-- Carry: forced to true by the high-correction condition, else unchanged (40_daa.md R61, R67). -/
def carryOf (a : Byte) (carry : Bool) : Bool := if highCondition a carry then true else carry

end Sys2Proof.Machine
end

