-- ==== Sys2Proof/Machine/Ops.lean ====
section
/-! DEFINITION. The named operations over the record: register and flag access by name (00_scope.md R13), DAA's outputs as a
function of its inputs, and the transform (40_daa.md R57). The block has no memory, no exception entry and no return from one
(20_memory.md R38; 60_exceptions.md R85, R86), so there is no operation for them. -/

namespace Sys2Proof.Machine

/-- Read a general register: `x[r]` (00_scope.md R13). No register is hard-wired (10_state.md R17). -/
def CpuState.readReg (s : CpuState) : Reg → Byte
  | .a => s.a
  | .b => s.b
  | .c => s.c
  | .d => s.d
  | .e => s.e
  | .h => s.h
  | .l => s.l

/-- Write a general register: `x[r] <- v` (00_scope.md R13). -/
def CpuState.writeReg (s : CpuState) (r : Reg) (v : Byte) : CpuState :=
  match r with
  | .a => { s with a := v }
  | .b => { s with b := v }
  | .c => { s with c := v }
  | .d => { s with d := v }
  | .e => { s with e := v }
  | .h => { s with h := v }
  | .l => { s with l := v }

/-- Read a flag by name (00_scope.md R13). -/
def CpuFlags.read (f : CpuFlags) : Flag → Bool
  | .sign => f.sign
  | .zero => f.zero
  | .auxCarry => f.auxCarry
  | .parity => f.parity
  | .carry => f.carry

/-- Write a flag by name (00_scope.md R13). -/
def CpuFlags.write (f : CpuFlags) (g : Flag) (v : Bool) : CpuFlags :=
  match g with
  | .sign => { f with sign := v }
  | .zero => { f with zero := v }
  | .auxCarry => { f with auxCarry := v }
  | .parity => { f with parity := v }
  | .carry => { f with carry := v }

/-- What DAA adds to the cycle counter (00_scope.md R8). -/
def cycleIncrement : Nat := 4

/-- The cycle counter after one invocation, with the wrap written out (40_daa.md R58; 00_scope.md R12). -/
def nextCycles (c : Word64) : Word64 := BitVec.ofNat 64 ((c.toNat + cycleIncrement) % 2 ^ 64)

/-- The 8-bit addition of the correction, with the wrap written out (40_daa.md R62; 00_scope.md R12). -/
def addCorrection (a : Byte) (corr : Nat) : Byte := BitVec.ofNat 8 ((a.toNat + corr) % 256)

/-- What DAA writes: the destinations (10_state.md R35; 30_encoding.md R51). -/
structure DaaOutputs where
  a : Byte
  flags : CpuFlags
  cycles : Word64
  deriving DecidableEq, Repr

/-- The corrected accumulator (40_daa.md R62). -/
def DaaInputs.result (i : DaaInputs) : Byte := addCorrection i.a (correction i.a i.carry i.auxCarry)

/-- All of DAA's outputs at once, from its inputs alone (40_daa.md R57, R70). -/
def DaaInputs.outputs (i : DaaInputs) : DaaOutputs where
  a := i.result
  flags :=
    { sign := signOf i.result
      zero := zeroOf i.result
      auxCarry := auxCarryOf i.a (correction i.a i.carry i.auxCarry)
      parity := parityOf i.result
      carry := carryOf i.a i.carry }
  cycles := nextCycles i.cycles

/-- Put DAA's outputs into a record; every other field passes through (40_daa.md R69). -/
def Cpu.writeOutputs {Id : Type} (r : Cpu Id) (o : DaaOutputs) : Cpu Id :=
  { r with state := { r.state with a := o.a, flags := o.flags, cycles := o.cycles } }

/-- The DAA transform, for every type of `id` (40_daa.md R57). -/
def Cpu.daa {Id : Type} (r : Cpu Id) : Cpu Id := r.writeOutputs r.daaInputs.outputs

/-- Change the `id` of a record, and with it the type of `id`: used to say that DAA never reads it (10_state.md R30). -/
def Cpu.mapId {α β : Type} (f : α → β) (r : Cpu α) : Cpu β :=
  { state := r.state, id := f r.id, opcode := r.opcode }

/-- The same state with another `opcode` field (10_state.md R31). -/
def State.withOpcode (s : State) (op : Byte) : State := { s with opcode := op }

end Sys2Proof.Machine
end

