-- ==== Sys2Proof/Machine/Daa.lean ====
section
/-! DEFINITION. The meaning of DAA (40_daa.md). -/

namespace Sys2Proof.Machine

/-- DAA: the record's transform. It always completes (40_daa.md R71) and does not advance the program counter
(10_state.md R21). -/
def execDaa (s : State) : Host.Outcome State Fault Refusal := .next { s with toCpu := s.toCpu.daa }

end Sys2Proof.Machine
end

