-- ==== Sys2Proof/Machine/Step.lean ====
section
/-! DEFINITION. One step: one invocation on the record the state holds. -/

namespace Sys2Proof.Machine

/-- One invocation (20_memory.md R42). There is no fetch (R39): the instruction is the one the record's own `opcode` field
selects (30_encoding.md R50), and the program counter is not advanced (10_state.md R21). -/
def step (s : State) : Host.Outcome State Fault Refusal := exec (decodeOpcode s.opcode) s

/-- The state with an instruction word in the place a step takes its instruction from: the record's `opcode` field. In this
model it is how the caller places an instruction (log entry 3). -/
def State.withFetchWord (s : State) (nbits w : Nat) : State := s.withOpcode (BitVec.ofNat 8 (w % 2 ^ nbits))

end Sys2Proof.Machine
end

