-- ==== Sys2Proof/Machine/Caller.lean ====
section
/-! DEFINITION. The caller of the block: what it may do to the record between invocations, and a run of invocations as it
sequences them (70_reset_and_hazards.md R95, R99; decision D16). The block has no sequencer of its own, so none of this is part
of `step`. DESIGN CHOICE (log entry 9; safe). -/

namespace Sys2Proof.Machine

/-- One edit of the record by the caller. Every field can be set to every value of its width (70_reset_and_hazards.md R95). -/
inductive Edit where
  /-- Supply a whole record, as the input port takes it (10_state.md R33). -/
  | supply (input : State)
  | setReg (r : Reg) (v : Byte)
  /-- Copy one general register to another, as the caller does between the steps of program P4 (95_test_vectors.md). -/
  | copyReg (dst src : Reg)
  | setFlag (g : Flag) (v : Bool)
  | setStackPointer (v : Word16)
  | setProgramCounter (v : Word16)
  | setCycles (v : Word64)
  | setId (v : Config.Id)
  | setOpcode (v : Byte)
  deriving DecidableEq, Repr

/-- The record after one edit. -/
def Edit.apply (e : Edit) (s : State) : State :=
  match e with
  | .supply input => input
  | .setReg r v => { s with state := s.state.writeReg r v }
  | .copyReg dst src => { s with state := s.state.writeReg dst (s.state.readReg src) }
  | .setFlag g v => { s with state := { s.state with flags := s.state.flags.write g v } }
  | .setStackPointer v => { s with state := { s.state with stackPointer := v } }
  | .setProgramCounter v => { s with state := { s.state with programCounter := v } }
  | .setCycles v => { s with state := { s.state with cycles := v } }
  | .setId v => { s with id := v }
  | .setOpcode v => s.withOpcode v

/-- One invocation as the caller makes it: its edits to the record, in order. -/
abbrev Call := List Edit

/-- The record after a call's edits. -/
def Call.apply (c : Call) (s : State) : State := c.foldl (fun s e => e.apply s) s

/-- A finite list of invocations: each call's edits, then one step on the edited record (decision D16). -/
def runCalls : List Call → State → Host.Outcome State Fault Refusal
  | [], s => .next s
  | c :: cs, s =>
    match step (Call.apply c s) with
    | .next t => runCalls cs t
    | .fault f => .fault f
    | .refused r => .refused r

end Sys2Proof.Machine
end

