-- ==== Sys2Proof/Machine/Concurrent.lean ====
section
/-! DEFINITION. Concurrent invocations: a pool of them under any schedule (20_memory.md R44 to R46; 60_exceptions.md R91;
decision D17). Each owns its own record; nothing is shared. DESIGN CHOICE (log entry 10; safe): an invocation is atomic
(R42), so an interleaving is an order of whole invocations. -/

namespace Sys2Proof.Machine

/-- One invocation of the pool. -/
inductive Slot where
  /-- Not run yet: it owns its input record. -/
  | waiting (input : State)
  /-- Ended: what the step answered for its input record. -/
  | ended (outcome : Host.Outcome State Fault Refusal)
  deriving Repr

/-- Run an invocation to its end. One that has ended stays as it is: one request gives one response (decision D7). -/
def Slot.run : Slot → Slot
  | .waiting input => .ended (step input)
  | .ended outcome => .ended outcome

/-- Run the invocations a schedule names, in its order. -/
def runSchedule (schedule : List Nat) (pool : List Slot) : List Slot :=
  schedule.foldl (fun p i => p.modify i Slot.run) pool

end Sys2Proof.Machine
end

