-- ==== Sys2Proof/Machine/Interface.lean ====
section
/-! DEFINITION. The shape of the input and output port (10_state.md R33): the fields of the record by name, with their
external names and widths. What DAA reads and writes of them are the types DaaInputs and DaaOutputs (R34, R35). -/

namespace Sys2Proof.Machine

/-- A field of the record. -/
inductive Field where
  | reg (r : Reg)
  | stackPointer
  | programCounter
  | cycles
  | flag (g : Flag)
  | id
  | opcode
  deriving DecidableEq, Repr

/-- The value of a field, at its own width. `id` is a token of its own kind (10_state.md R30). -/
inductive FieldValue where
  | byte (v : Byte)
  | word16 (v : Word16)
  | word64 (v : Word64)
  | bool (v : Bool)
  | token (v : Config.Id)
  deriving DecidableEq, Repr

/-- A general register's own lowercase name (10_state.md R33). -/
def Reg.name : Reg → String
  | .a => "a"
  | .b => "b"
  | .c => "c"
  | .d => "d"
  | .e => "e"
  | .h => "h"
  | .l => "l"

/-- A flag's external name (10_state.md R33; 00_scope.md R14). -/
def Flag.name : Flag → String
  | .sign => "sign"
  | .zero => "zero"
  | .auxCarry => "auxCarry"
  | .parity => "parity"
  | .carry => "carry"

/-- The external path of a field (10_state.md R33). -/
def Field.path : Field → String
  | .reg r => "state." ++ r.name
  | .stackPointer => "state.stackPointer"
  | .programCounter => "state.programCounter"
  | .cycles => "state.cycles"
  | .flag g => "state.flags." ++ g.name
  | .id => "id"
  | .opcode => "opcode"

/-- The width of a field in bits; `id` is opaque and has none (10_state.md R33). -/
def Field.width : Field → Option Nat
  | .reg _ => some 8
  | .stackPointer => some 16
  | .programCounter => some 16
  | .cycles => some 64
  | .flag _ => some 1
  | .id => none
  | .opcode => some 8

/-- The general registers. -/
def Reg.all : List Reg := [.a, .b, .c, .d, .e, .h, .l]

/-- The flags. -/
def Flag.all : List Flag := [.sign, .zero, .auxCarry, .parity, .carry]

/-- Every field of the record, in the order of the table of 10_state.md R33. -/
def Field.all : List Field :=
  Reg.all.map .reg ++ [.stackPointer, .programCounter, .cycles] ++ Flag.all.map .flag ++ [.id, .opcode]

/-- Read a field. Reading has no side effect (20_memory.md R42). -/
def State.read (s : State) : Field → FieldValue
  | .reg r => .byte (s.state.readReg r)
  | .stackPointer => .word16 s.state.stackPointer
  | .programCounter => .word16 s.state.programCounter
  | .cycles => .word64 s.state.cycles
  | .flag g => .bool (s.state.flags.read g)
  | .id => .token s.id
  | .opcode => .byte s.opcode

end Sys2Proof.Machine
end

