-- ==== Sys2Proof/Safety.lean ====
section
/-! DEFINITION. The terms the claims use: a safe run, invariants of the record, and an arithmetic reading of the rules over
natural numbers, independent of the machine's bit operations. -/

namespace Sys2Proof.Safety

open Sys2Proof.Machine

/-- An outcome that is a next state: the only kind the spec allows (60_exceptions.md R80, R82). -/
def Completes (o : Host.Outcome State Fault Refusal) : Prop := ∃ t, o = .next t

/-- A run of `k` steps is safe when it ends in a next state (70_reset_and_hazards.md R101). -/
def SafeRun (k : Nat) (s : State) : Prop := ∃ t : State, Sys2Proof.core.run k s = .next t

/-- Rule R60's condition, read over natural numbers. -/
def LowTooLarge (a : Nat) (ac : Bool) : Prop := ac = true ∨ a % 16 > 9

/-- Rule R61's condition on the nibbles alone, read over natural numbers. -/
def HighNibblesTooLarge (a : Nat) : Prop := a / 16 > 9 ∨ (a / 16 = 9 ∧ a % 16 > 9)

/-- Rule R61's condition, read over natural numbers. -/
def HighTooLarge (a : Nat) (cy : Bool) : Prop := cy = true ∨ HighNibblesTooLarge a

/-- The correction of rules R60 and R61, `c`, named by its four cases over natural numbers. -/
def IsCorrection (a : Nat) (cy ac : Bool) (c : Nat) : Prop :=
  (¬ LowTooLarge a ac ∧ ¬ HighTooLarge a cy ∧ c = 0x00) ∨ (LowTooLarge a ac ∧ ¬ HighTooLarge a cy ∧ c = 0x06) ∨
  (¬ LowTooLarge a ac ∧ HighTooLarge a cy ∧ c = 0x60) ∨ (LowTooLarge a ac ∧ HighTooLarge a cy ∧ c = 0x66)

/-- How many of the eight low bits of a number are 1, by repeated halving. -/
def onesOf (n : Nat) : Nat :=
  n % 2 + n / 2 % 2 + n / 4 % 2 + n / 8 % 2 + n / 16 % 2 + n / 32 % 2 + n / 64 % 2 + n / 128 % 2

/-- A byte is packed BCD: both nibbles are decimal digits (00_scope.md, glossary; G1). -/
def IsPackedBcd (v : Nat) : Prop := v < 256 ∧ v / 16 ≤ 9 ∧ v % 16 ≤ 9

/-- The decimal value of a packed-BCD byte. -/
def bcdValue (v : Nat) : Nat := v / 16 * 10 + v % 16

/-- The packed-BCD encoding of a number below 100. -/
def toBcd (n : Nat) : Nat := n / 10 * 16 + n % 10

/-- What four of the flags say WHEN SET: a set sign, zero or parity is true of the accumulator, and with a set `auxCarry` its
low digit is at most 5. Nothing is said of a clear flag, nor of carry. An invariant of the model: every step keeps it. -/
def SetFlagsTruthful (s : State) : Prop :=
  (s.state.flags.sign = true → s.state.a.toNat ≥ 128) ∧ (s.state.flags.zero = true → s.state.a.toNat = 0) ∧
  (s.state.flags.parity = true → onesOf s.state.a.toNat % 2 = 0) ∧
  (s.state.flags.auxCarry = true → s.state.a.toNat % 16 ≤ 5)

/-- The record needs no correction: packed BCD in the accumulator and neither carry set. An invariant: every step keeps it. -/
def Settled (s : State) : Prop :=
  IsPackedBcd s.state.a.toNat ∧ s.state.flags.carry = false ∧ s.state.flags.auxCarry = false

/-- The record's carry is set, and its low digit needs no correction: each further invocation adds 0x60 alone. An invariant:
every step keeps it. -/
def CarryLatched (s : State) : Prop :=
  s.state.flags.carry = true ∧ s.state.flags.auxCarry = false ∧ s.state.a.toNat % 16 ≤ 9

/-- Two records agree on every field DAA does not write (10_state.md R35; 40_daa.md R69). -/
def SamePassthrough (s t : State) : Prop :=
  t.state.b = s.state.b ∧ t.state.c = s.state.c ∧ t.state.d = s.state.d ∧ t.state.e = s.state.e ∧
  t.state.h = s.state.h ∧ t.state.l = s.state.l ∧ t.state.stackPointer = s.state.stackPointer ∧
  t.state.programCounter = s.state.programCounter ∧ t.id = s.id ∧ t.opcode = s.opcode

end Sys2Proof.Safety
end

