-- ==== Sys2Proof/Certificates/Slice0/Obligations.lean ====
section
/-! DEFINITION. The statements for the provers. Each docstring names what it formalises. A statement whose basis is one of
the spec's own inferences (its rules marked derived) or a choice of the model says so. -/

open Sys2Proof Sys2Proof.Machine Sys2Proof.Safety

/-- 60_exceptions.md R80: no input makes the block trap, fault or stop. Every instruction and every step, from every state,
answers a next state, and there is no fault a step could report. -/
def Obligations.NoInputTrapsFaultsOrStops : Prop :=
  (∀ (i : Instr) (s : State), ∃ t, exec i s = .next t) ∧ (∀ s : State, ∃ t, step s = .next t) ∧ ¬ Nonempty Fault

/-- A step runs the instruction the record's own opcode selects, which is well formed, and adds nothing around it: the program
counter is not advanced and the opcode stays. Model statement over 20_memory.md section 1 and 30_encoding.md section 1 (log
entries 3, 4). -/
def Obligations.StepRunsDecodedInstruction : Prop :=
  ∀ s : State, (decodeOpcode s.opcode).wellFormed = true ∧ step s = exec (decodeOpcode s.opcode) s ∧
    ∀ t, step s = .next t → t.state.programCounter = s.state.programCounter ∧ t.opcode = s.opcode

/-- 30_encoding.md R52: all 256 opcode values are accepted and all perform DAA, and none traps. -/
def Obligations.EveryOpcodePerformsDaa : Prop :=
  ∀ (op : Byte) (s : State), decodeOpcode op = .daa ∧
    ∃ t, step (s.withOpcode op) = .next t ∧ exec .daa (s.withOpcode op) = .next t

/-- 10_state.md R31: the opcode is not read and not dispatched on; changing it changes the output's opcode and nothing else. -/
def Obligations.OpcodeNotDispatchedOn : Prop :=
  ∀ (s : State) (op : Byte), ∃ t, step s = .next t ∧ t.opcode = s.opcode ∧
    step (s.withOpcode op) = .next (t.withOpcode op)

/-- 40_daa.md R58: cycles increments by exactly 4 modulo 2^64 whatever the other inputs are, and the largest value gives 3. -/
def Obligations.CyclesPlusFour : Prop :=
  ∀ s : State, ∃ t, exec .daa s = .next t ∧ t.state.cycles.toNat = (s.state.cycles.toNat + 4) % 2 ^ 64 ∧
    (s.state.cycles = 0xFFFFFFFFFFFFFFFF → t.state.cycles = 3)

/-- 40_daa.md R60: the correction after step 3, from the input auxCarry and the low nibble of the input accumulator. -/
def Obligations.LowCorrectionStep : Prop :=
  ∀ s : State,
    ((s.state.flags.auxCarry = true ∨ s.state.a.toNat % 16 > 9) →
      lowCorrection s.toCpu.daaInputs.a s.toCpu.daaInputs.auxCarry = 0x06) ∧
    (¬ (s.state.flags.auxCarry = true ∨ s.state.a.toNat % 16 > 9) →
      lowCorrection s.toCpu.daaInputs.a s.toCpu.daaInputs.auxCarry = 0x00)

/-- 40_daa.md R61 and R67: when the high condition holds the correction gains 0x60, making it 0x60 or 0x66, and carry becomes
true; when it fails the correction is unchanged and carry keeps its input value. The output carry is what this step leaves. -/
def Obligations.HighCorrectionForcesCarry : Prop :=
  ∀ s : State, ∃ t, exec .daa s = .next t ∧
    (HighTooLarge s.state.a.toNat s.state.flags.carry →
      correction s.state.a s.state.flags.carry s.state.flags.auxCarry
        = lowCorrection s.state.a s.state.flags.auxCarry + 0x60 ∧
      (correction s.state.a s.state.flags.carry s.state.flags.auxCarry = 0x60 ∨
        correction s.state.a s.state.flags.carry s.state.flags.auxCarry = 0x66) ∧
      t.state.flags.carry = true) ∧
    (¬ HighTooLarge s.state.a.toNat s.state.flags.carry →
      correction s.state.a s.state.flags.carry s.state.flags.auxCarry
        = lowCorrection s.state.a s.state.flags.auxCarry ∧
      t.state.flags.carry = s.state.flags.carry)

/-- 40_daa.md R62 and R68: the accumulator becomes the input accumulator plus the final correction, modulo 256, and no other
general register is written. -/
def Obligations.AccumulatorResult : Prop :=
  ∀ (s : State) (c : Nat), IsCorrection s.state.a.toNat s.state.flags.carry s.state.flags.auxCarry c →
    ∃ t, exec .daa s = .next t ∧ t.state.a.toNat = (s.state.a.toNat + c) % 256 ∧
      ∀ r : Reg, r ≠ .a → t.state.readReg r = s.state.readReg r

/-- 40_daa.md R63, R64 and R66: sign is bit 7 of the result, zero says it is 0, parity says it has an even number of set
bits. -/
def Obligations.SignZeroParityOfResult : Prop :=
  ∀ (s : State) (c : Nat), IsCorrection s.state.a.toNat s.state.flags.carry s.state.flags.auxCarry c →
    ∃ t, exec .daa s = .next t ∧
      (t.state.flags.sign = true ↔ ((s.state.a.toNat + c) % 256).testBit 7 = true) ∧
      (t.state.flags.zero = true ↔ (s.state.a.toNat + c) % 256 = 0) ∧
      (t.state.flags.parity = true ↔ onesOf ((s.state.a.toNat + c) % 256) % 2 = 0)

/-- 10_state.md R24, R25 and R27: sign, zero and parity are true exactly as the result is negative, zero or even in bits, and
their input values are not read: whatever they are, the output is the same. -/
def Obligations.SignZeroParityInputsUnread : Prop :=
  ∀ (s : State) (sg z p : Bool), ∃ t, exec .daa s = .next t ∧
    exec .daa { s with state := { s.state with flags := { s.state.flags with sign := sg, zero := z, parity := p } } }
      = .next t ∧
    (t.state.flags.sign = true ↔ t.state.a.toNat ≥ 128) ∧ (t.state.flags.zero = true ↔ t.state.a.toNat = 0) ∧
    (t.state.flags.parity = true ↔ onesOf t.state.a.toNat % 2 = 0)

/-- 40_daa.md R65: auxCarry is the carry out of the low nibble of the correction addition, from the ORIGINAL accumulator. The
low nibble of the correction is 6 or 0 and the sum is from 0 to 30. -/
def Obligations.AuxCarryOfCorrectionAddition : Prop :=
  ∀ (s : State) (c : Nat), IsCorrection s.state.a.toNat s.state.flags.carry s.state.flags.auxCarry c →
    (c &&& 0x0F = 0x6 ∨ c &&& 0x0F = 0x0) ∧ (s.state.a.toNat &&& 0x0F) + (c &&& 0x0F) ≤ 30 ∧
    ∃ t, exec .daa s = .next t ∧
      (t.state.flags.auxCarry = true ↔ (s.state.a.toNat &&& 0x0F) + (c &&& 0x0F) > 0x0F)

/-- 10_state.md R28: the output carry is the input carry OR the high-correction condition, so it is never cleared once set; the
input carry alone makes the high correction happen. -/
def Obligations.CarryIsSticky : Prop :=
  ∀ s : State, ∃ t, exec .daa s = .next t ∧
    (t.state.flags.carry = true ↔ s.state.flags.carry = true ∨ HighNibblesTooLarge s.state.a.toNat) ∧
    (s.state.flags.carry = true → t.state.flags.carry = true ∧
      correction s.state.a s.state.flags.carry s.state.flags.auxCarry
        = lowCorrection s.state.a s.state.flags.auxCarry + 0x60)

/-- 40_daa.md R69: b, c, d, e, h, l, stackPointer, programCounter, id and opcode are unchanged between input and output. -/
def Obligations.PassthroughUnchanged : Prop :=
  ∀ s : State, ∃ t, exec .daa s = .next t ∧ SamePassthrough s t

/-- 10_state.md R35: DAA writes seven fields and every other field of the record, read by name, equals its input; each of the
seven is really written, since some record sees it change. -/
def Obligations.WritesExactlySevenFields : Prop :=
  (∀ s : State, ∃ t, exec .daa s = .next t ∧
    ∀ f : Field, f ∉ [Field.reg .a, .cycles, .flag .sign, .flag .zero, .flag .auxCarry, .flag .parity, .flag .carry] →
      t.read f = s.read f) ∧
  (∀ f ∈ [Field.reg .a, .cycles, .flag .sign, .flag .zero, .flag .auxCarry, .flag .parity, .flag .carry],
    ∃ s t : State, exec .daa s = .next t ∧ t.read f ≠ s.read f)

/-- The spec's own inference (10_state.md, 'Its outputs are a function of those four fields', marked derived): two records
that agree on a, carry, auxCarry and cycles have outputs that agree on all seven written fields. -/
def Obligations.OutputsDependOnFourInputs : Prop :=
  ∀ s s' : State, s.state.a = s'.state.a → s.state.flags.carry = s'.state.flags.carry →
    s.state.flags.auxCarry = s'.state.flags.auxCarry → s.state.cycles = s'.state.cycles →
    ∃ t t', exec .daa s = .next t ∧ exec .daa s' = .next t' ∧ t.state.a = t'.state.a ∧
      t.state.cycles = t'.state.cycles ∧ t.state.flags = t'.state.flags

/-- The spec's own inference (10_state.md, 'The block reads four input fields', marked derived), its other half: each of the
four matters. Two records that differ in that field alone have outputs that differ in a written field other than it, or in the
cycle counter itself. -/
def Obligations.EachOfFourInputsMatters : Prop :=
  ∀ f ∈ [Field.reg .a, .flag .carry, .flag .auxCarry, .cycles],
    ∃ s s' t t' : State, (∀ g : Field, g ≠ f → s.read g = s'.read g) ∧ exec .daa s = .next t ∧ exec .daa s' = .next t' ∧
      ∃ w ∈ [Field.reg .a, .cycles, .flag .sign, .flag .zero, .flag .auxCarry, .flag .parity, .flag .carry],
        (w ≠ f ∨ f = .cycles) ∧ t.read w ≠ t'.read w

/-- The spec's own inference (40_daa.md section 3, the four values of the correction and when each is taken, marked
derived). -/
def Obligations.CorrectionHasFourValues : Prop :=
  ∀ (a : Byte) (cy ac : Bool), IsCorrection a.toNat cy ac (correction a cy ac)

/-- The spec's own inference (40_daa.md section 3, 'carry_out = cy_in or a_in > 0x99', marked derived), with the range of the
nibble condition. -/
def Obligations.CarryClosedForm : Prop :=
  ∀ s : State, ∃ t, exec .daa s = .next t ∧
    t.state.flags.carry = (s.state.flags.carry || decide (s.state.a.toNat > 0x99)) ∧
    (HighNibblesTooLarge s.state.a.toNat ↔ 0x9A ≤ s.state.a.toNat ∧ s.state.a.toNat ≤ 0xFF)

/-- The spec's own inference (40_daa.md section 3, 'auxCarry_out = (lsn > 9), whatever ac_in is', marked derived). -/
def Obligations.AuxCarryClosedForm : Prop :=
  ∀ s : State, ∃ t, exec .daa s = .next t ∧ t.state.flags.auxCarry = decide (s.state.a.toNat % 16 > 9)

/-- The spec's own inference (40_daa.md section 3, the wrap of the 8-bit addition implies carry, marked derived), and that the
converse is false. -/
def Obligations.WrapImpliesCarry : Prop :=
  (∀ (s : State) (c : Nat), IsCorrection s.state.a.toNat s.state.flags.carry s.state.flags.auxCarry c →
    s.state.a.toNat + c ≥ 256 → ∃ t, exec .daa s = .next t ∧ t.state.flags.carry = true) ∧
  (∃ (s : State) (c : Nat) (t : State), IsCorrection s.state.a.toNat s.state.flags.carry s.state.flags.auxCarry c ∧
    s.state.a.toNat + c < 256 ∧ exec .daa s = .next t ∧ t.state.flags.carry = true)

/-- The spec's own inference (40_daa.md section 3, 'DAA corrects a packed-BCD sum', marked derived; the convention of the
addition before it is general knowledge, G3). -/
def Obligations.PackedBcdSumCorrected : Prop :=
  ∀ (s : State) (x y k : Nat), IsPackedBcd x → IsPackedBcd y → k ≤ 1 →
    s.state.a.toNat = (x + y + k) % 256 → s.state.flags.carry = decide (x + y + k ≥ 256) →
    s.state.flags.auxCarry = decide (x % 16 + y % 16 + k > 0x0F) →
    ∃ t, exec .daa s = .next t ∧ t.state.a.toNat = toBcd ((bcdValue x + bcdValue y + k) % 100) ∧
      t.state.flags.carry = decide (bcdValue x + bcdValue y + k ≥ 100)

/-- The spec's own inference (40_daa.md section 3, 'DAA is not idempotent', marked derived): from every record, of the 1024
combinations of accumulator, carry and auxCarry put into it, exactly 884 have an accumulator that a second DAA changes. -/
def Obligations.SecondDaaChangesAccumulator : Prop :=
  ∀ s : State,
    ((List.range 1024).countP fun n =>
      let i : Cpu Config.Id := { s.toCpu with state := { s.state with
        a := BitVec.ofNat 8 (n / 4)
        flags := { s.state.flags with carry := decide (n % 4 / 2 = 1), auxCarry := decide (n % 2 = 1) } } }
      match exec .daa { s with toCpu := i } with
      | .next t =>
        match exec .daa t with
        | .next u => decide (u.state.a ≠ t.state.a)
        | .fault _ => false
        | .refused _ => false
      | .fault _ => false
      | .refused _ => false) = 884

/-- 10_state.md R30: the block never reads id, and output id equals input id. Whatever the type of the token, relabelling it
before the transform or after it is the same; and the closed machine's DAA is that transform. -/
def Obligations.IdNeverRead : Prop :=
  (∀ (α β : Type) (f : α → β) (r : Cpu α), (r.mapId f).daa = r.daa.mapId f ∧ r.daa.id = r.id) ∧
  (∀ s : State, ∃ t, exec .daa s = .next t ∧ t.toCpu = s.toCpu.daa ∧ t.id = s.id)

/-- Concurrent invocations do not interfere: whatever the schedule, a scheduled invocation ends with what a step answers for its
own input, and one not scheduled still waits. That the output is the one the invocation's input alone gives is the spec's own
inference (20_memory.md section 4, 'Concurrent invocations do not interfere', marked derived). The pool, its schedule of whole
invocations and the clause on one not scheduled are the model's choice (log entry 10, DESIGN CHOICE). -/
def Obligations.ConcurrentInvocationsIndependent : Prop :=
  ∀ (schedule : List Nat) (inputs : List State) (i : Nat) (s : State), inputs[i]? = some s →
    (runSchedule schedule (inputs.map .waiting)).length = inputs.length ∧
    (i ∈ schedule → (runSchedule schedule (inputs.map .waiting))[i]? = some (.ended (step s))) ∧
    (i ∉ schedule → (runSchedule schedule (inputs.map .waiting))[i]? = some (.waiting s))

/-- The spec's own inference (70_reset_and_hazards.md section 3, 'Back-to-back invocations compose as functions', marked
derived): after some calls, further calls start from exactly the record they left. The calls are the model's (log entry 9). -/
def Obligations.CallsCompose : Prop :=
  ∀ (xs ys : List Call) (s : State), ∃ t, runCalls xs s = .next t ∧ runCalls (xs ++ ys) s = runCalls ys t

/-- Every invocation ends, with the production of its output record, in a run of any length and in any sequence of calls. Model
statement over 70_reset_and_hazards.md section 4, 'A model has no stuck state and no infinite run for the block'; the chain of
steps and the calls are the model's (log entries 4, 9). -/
def Obligations.EveryInvocationEnds : Prop :=
  (∀ s : State, Completes (step s)) ∧ (∀ (k : Nat) (s : State), SafeRun k s) ∧
  (∀ (cs : List Call) (s : State), Completes (runCalls cs s))

/-- Whatever calls came before, from whatever record, an invocation on a record the caller supplies gives what it gives alone.
Model statement over 10_state.md section 7, 'No value from one invocation can affect another'; the calls are the model's (log
entry 9). -/
def Obligations.NothingRetainedBetweenInvocations : Prop :=
  ∀ (before : List Call) (s input : State), runCalls (before ++ [[.supply input]]) s = step input

/-- Over a run of any number of invocations from every record: cycles counts invocations times four, modulo 2^64, the
passthrough fields never change and carry is never cleared. Model statement over 60_exceptions.md section 5 and 40_daa.md
section 2. -/
def Obligations.RunCountsCycles : Prop :=
  ∀ (k : Nat) (s : State), ∃ t : State, Sys2Proof.core.run k s = .next t ∧
    t.state.cycles.toNat = (s.state.cycles.toNat + 4 * k) % 2 ^ 64 ∧ SamePassthrough s t ∧
    (s.state.flags.carry = true → t.state.flags.carry = true)

/-- From every record, after five or more invocations no low digit needs correcting: the record is settled or its carry is
latched. Model statement over 40_daa.md sections 2 and 3. -/
def Obligations.FiveInvocationsReachRegime : Prop :=
  ∀ (k : Nat) (s : State), 5 ≤ k → ∃ t : State, Sys2Proof.core.run k s = .next t ∧ (Settled t ∨ CarryLatched t)

/-- An invariant every step keeps: a SET sign, zero or parity is true of the accumulator, and with a set auxCarry its low digit
is at most 5; a clear flag says nothing here. (A step makes it so from every record: DAA writes all five flags, so the
hypothesis is there for the invariant's form.) Model statement over 40_daa.md section 2. -/
def Obligations.SetFlagsTruthfulKept : Prop :=
  ∀ s t : State, SetFlagsTruthful s → step s = .next t → SetFlagsTruthful t

/-- An invariant every step keeps: a settled record stays settled, and its accumulator does not change. Model statement over
40_daa.md section 2. -/
def Obligations.SettledKept : Prop :=
  ∀ s t : State, Settled s → step s = .next t → Settled t ∧ t.state.a = s.state.a

/-- An invariant every step keeps: a latched carry stays latched; the accumulator gains 0x60 modulo 256 at each step, so its low
digit stays, and eight steps bring it back. Model statement over 40_daa.md section 2. -/
def Obligations.CarryLatchedKept : Prop :=
  (∀ s t : State, CarryLatched s → step s = .next t →
    CarryLatched t ∧ t.state.a.toNat = (s.state.a.toNat + 0x60) % 256) ∧
  (∀ s t : State, CarryLatched s → Sys2Proof.core.run 8 s = .next t → CarryLatched t ∧ t.state.a = s.state.a)

/-- The record after reset satisfies two of the invariants. It rests on the model's choice of reset values (log entry 2, DESIGN
CHOICE): the spec gives none. -/
def Obligations.ResetMeetsInvariants : Prop :=
  SetFlagsTruthful State.reset ∧ Settled State.reset

/-- An equivalence of two designs (93_implementation_defined.md, N1, informative): DAA is the two-stage correction that first
adds 6 to the accumulator when the low nibble needs it, then tests whether the high nibble of that sum, not cut to 8 bits, is
above 9. -/
def Obligations.TwoStageCorrectionEquivalent : Prop :=
  ∀ (s : State) (v : Nat),
    ((LowTooLarge s.state.a.toNat s.state.flags.auxCarry ∧ v = s.state.a.toNat + 6) ∨
      (¬ LowTooLarge s.state.a.toNat s.state.flags.auxCarry ∧ v = s.state.a.toNat)) →
    ∃ t, exec .daa s = .next t ∧ (t.state.flags.carry = true ↔ s.state.flags.carry = true ∨ v / 16 > 9) ∧
      ((s.state.flags.carry = true ∨ v / 16 > 9) → t.state.a.toNat = (v + 0x60) % 256) ∧
      (¬ (s.state.flags.carry = true ∨ v / 16 > 9) → t.state.a.toNat = v)

/-- Decode and encode agree, both ways: each word that carries an instruction's fixed bits decodes to it whatever its open bits
are, and encoding what a word decodes to, with the word's own open bits, gives the word back. Over 30_encoding.md section 1 (log
entry 8). -/
def Obligations.DecodeEncodeAgree : Prop :=
  (∀ (i : Instr) (u : Byte), i.wellFormed = true → decodeOpcode (encode i u) = i ∧ encode i u &&& i.mask = i.matchBits) ∧
  (∀ op : Byte, (decodeOpcode op).wellFormed = true ∧ encode (decodeOpcode op) op = op)

/-- The decoder on words written out from the opcode table: the match 0x00, the 8080's 0x27, and 0xFF, each DAA; a number that is
not one byte is refused by name (log entry 8). -/
def Obligations.DecodeWrittenWords : Prop :=
  decodeTableWord 8 0b00000000 = some .daa ∧ decodeTableWord 8 0b00100111 = some .daa ∧
  decodeTableWord 8 0b11111111 = some .daa ∧ decodeWord 8 0b100000000 = .error .notOneOpcodeByte ∧
  decodeWord 16 0 = .error .notOneOpcodeByte

/-- An instruction placed where a step takes it from is the one the next step runs. The placing is the model's (log entry 3). -/
def Obligations.PlacedWordRuns : Prop :=
  ∀ (s : State) (nbits w : Nat) (i : Instr), decodeTableWord nbits w = some i →
    (s.withFetchWord nbits w).opcode.toNat = w ∧
    step (s.withFetchWord nbits w) = exec i (s.withFetchWord nbits w) ∧ (s.withFetchWord nbits w).state = s.state ∧
    (s.withFetchWord nbits w).id = s.id

/-- The record is the whole state: two states whose fields all read the same are equal, and the port's list of fields, whose
external names are all different, holds every field once. Over 10_state.md sections 6 and 7. -/
def Obligations.FieldsAreTheWholeState : Prop :=
  (∀ s t : State, (∀ f : Field, s.read f = t.read f) → s = t) ∧ (∀ f : Field, f ∈ Field.all) ∧
  (∀ f g : Field, f.path = g.path → f = g) ∧ Field.all.length = 17

/-- The source's four worked scenarios (95_test_vectors.md section 1, S1 to S4), on every record with those inputs. -/
def Obligations.SourceScenarios : Prop :=
  (∀ s : State, s.state.a = 0x9A → s.state.flags.carry = false → s.state.flags.auxCarry = false →
    ∃ t, exec .daa s = .next t ∧ t.state.a = 0x00 ∧ t.state.flags = ⟨false, true, true, true, true⟩) ∧
  (∀ s : State, s.state.a = 0x05 → s.state.flags.carry = false → s.state.flags.auxCarry = false →
    ∃ t, exec .daa s = .next t ∧ t.state.a = 0x05 ∧ t.state.flags = ⟨false, false, false, true, false⟩) ∧
  (∀ s : State, s.state.a = 0x00 → s.state.flags.carry = true → s.state.flags.auxCarry = false →
    ∃ t, exec .daa s = .next t ∧ t.state.a = 0x60 ∧ t.state.flags = ⟨false, false, false, true, true⟩) ∧
  (∀ s : State, s.state.cycles = 0xFFFFFFFFFFFFFFFF → ∃ t, exec .daa s = .next t ∧ t.state.cycles = 3)
end

