-- ==== Sys2Proof/Laws/Operands.lean ====
section
/-! SUPPORT. The operand, flag and addition operations, each read over natural numbers: later proofs cite these and do not
unfold the bit operations. -/

namespace Sys2Proof.Machine

open Sys2Proof.Safety

theorem msn_toNat (v : Byte) : (msn v).toNat = v.toNat / 16 := by
  simp [msn, Nat.shiftRight_eq_div_pow]

theorem lsn_toNat (v : Byte) : (lsn v).toNat = v.toNat % 16 := by
  simp only [lsn, lowNibbleMask, BitVec.toNat_and]
  exact Nat.and_two_pow_sub_one_eq_mod v.toNat 4

theorem lowCondition_iff (a : Byte) (ac : Bool) : lowCondition a ac = true ↔ LowTooLarge a.toNat ac := by
  simp [lowCondition, LowTooLarge, lsn_toNat, nibbleThreshold]

theorem highCondition_iff (a : Byte) (cy : Bool) : highCondition a cy = true ↔ HighTooLarge a.toNat cy := by
  simp [highCondition, HighTooLarge, HighNibblesTooLarge, msn_toNat, lsn_toNat, nibbleThreshold, or_assoc]

theorem carryOf_iff (a : Byte) (cy : Bool) : carryOf a cy = true ↔ HighTooLarge a.toNat cy := by
  rw [← highCondition_iff]
  cases cy <;> simp [carryOf, highCondition]

theorem addCorrection_toNat (a : Byte) (c : Nat) : (addCorrection a c).toNat = (a.toNat + c) % 256 := by
  simp [addCorrection]

theorem nextCycles_toNat (c : Word64) : (nextCycles c).toNat = (c.toNat + 4) % 2 ^ 64 := by
  simp [nextCycles, cycleIncrement]

theorem signOf_iff (r : Byte) : signOf r = true ↔ r.toNat ≥ 128 := by
  rw [signOf, ← BitVec.msb_eq_getLsbD_last, BitVec.msb_eq_decide]
  simp

theorem zeroOf_iff (r : Byte) : zeroOf r = true ↔ r.toNat = 0 := by
  simp [zeroOf, BitVec.toNat_eq]

theorem popcount_eq_onesOf : ∀ r : Byte, popcount r = onesOf r.toNat := by
  decide +kernel

theorem parityOf_iff (r : Byte) : parityOf r = true ↔ onesOf r.toNat % 2 = 0 := by
  simp [parityOf, popcount_eq_onesOf]

theorem auxCarryOf_iff (a : Byte) (c : Nat) : auxCarryOf a c = true ↔ a.toNat % 16 + c % 16 > 15 := by
  have ha : (a &&& lowNibbleMask).toNat = a.toNat % 16 := lsn_toNat a
  have hc : c &&& lowNibbleMask.toNat = c % 16 := Nat.and_two_pow_sub_one_eq_mod c 4
  rw [auxCarryOf, ha, hc, decide_eq_true_eq]
  rfl

end Sys2Proof.Machine
end

