-- ==== Sys2Proof/Laws/PerInstr.lean ====
section
/-! SUPPORT. Statements made once per instruction, about the instruction as syntax. -/

namespace Sys2Proof.Laws.RowBits

/-- The encoder keeps the bits the instruction's row of the opcode table fixes, and takes every other bit from its second
argument (30_encoding.md R50). -/
def Statement (i : Instr) : Prop :=
  i.wellFormed = true → ∀ u : Byte, encode i u &&& i.mask = i.matchBits ∧ encode i u &&& ~~~i.mask = u &&& ~~~i.mask

theorem daa : Statement .daa := by
  intro _ u
  simp [encode, Instr.mask, Instr.matchBits, BitVec.and_assoc]

end Sys2Proof.Laws.RowBits
end

