-- ==== Sys2Proof/Laws/State.lean ====
section
/-! SUPPORT. The small lemmas of the record: one per field per update, and register and flag access by name. -/

namespace Sys2Proof.Machine

variable {Id α β : Type}

section WriteOutputs
variable (r : Cpu Id) (o : DaaOutputs)

@[simp] theorem Cpu.writeOutputs_a : (r.writeOutputs o).state.a = o.a := rfl
@[simp] theorem Cpu.writeOutputs_b : (r.writeOutputs o).state.b = r.state.b := rfl
@[simp] theorem Cpu.writeOutputs_c : (r.writeOutputs o).state.c = r.state.c := rfl
@[simp] theorem Cpu.writeOutputs_d : (r.writeOutputs o).state.d = r.state.d := rfl
@[simp] theorem Cpu.writeOutputs_e : (r.writeOutputs o).state.e = r.state.e := rfl
@[simp] theorem Cpu.writeOutputs_h : (r.writeOutputs o).state.h = r.state.h := rfl
@[simp] theorem Cpu.writeOutputs_l : (r.writeOutputs o).state.l = r.state.l := rfl
@[simp] theorem Cpu.writeOutputs_stackPointer : (r.writeOutputs o).state.stackPointer = r.state.stackPointer := rfl
@[simp] theorem Cpu.writeOutputs_programCounter :
    (r.writeOutputs o).state.programCounter = r.state.programCounter := rfl
@[simp] theorem Cpu.writeOutputs_cycles : (r.writeOutputs o).state.cycles = o.cycles := rfl
@[simp] theorem Cpu.writeOutputs_flags : (r.writeOutputs o).state.flags = o.flags := rfl
@[simp] theorem Cpu.writeOutputs_id : (r.writeOutputs o).id = r.id := rfl
@[simp] theorem Cpu.writeOutputs_opcode : (r.writeOutputs o).opcode = r.opcode := rfl

end WriteOutputs

section Inputs
variable (r : Cpu Id)

@[simp] theorem Cpu.daaInputs_a : r.daaInputs.a = r.state.a := rfl
@[simp] theorem Cpu.daaInputs_carry : r.daaInputs.carry = r.state.flags.carry := rfl
@[simp] theorem Cpu.daaInputs_auxCarry : r.daaInputs.auxCarry = r.state.flags.auxCarry := rfl
@[simp] theorem Cpu.daaInputs_cycles : r.daaInputs.cycles = r.state.cycles := rfl

end Inputs

section MapId
variable (f : α → β) (r : Cpu α)

@[simp] theorem Cpu.mapId_state : (r.mapId f).state = r.state := rfl
@[simp] theorem Cpu.mapId_id : (r.mapId f).id = f r.id := rfl
@[simp] theorem Cpu.mapId_opcode : (r.mapId f).opcode = r.opcode := rfl

end MapId

section WithOpcode
variable (s : State) (op : Byte)

@[simp] theorem State.withOpcode_state : (s.withOpcode op).state = s.state := rfl
@[simp] theorem State.withOpcode_id : (s.withOpcode op).id = s.id := rfl
@[simp] theorem State.withOpcode_opcode : (s.withOpcode op).opcode = op := rfl

end WithOpcode

section Registers
variable (s : CpuState) (r : Reg) (v : Byte)

@[simp] theorem CpuState.readReg_writeReg_same : (s.writeReg r v).readReg r = v := by cases r <;> rfl

theorem CpuState.readReg_writeReg_other {r q : Reg} (h : q ≠ r) : (s.writeReg r v).readReg q = s.readReg q := by
  cases r <;> cases q <;> first | rfl | exact absurd rfl h

@[simp] theorem CpuState.writeReg_stackPointer : (s.writeReg r v).stackPointer = s.stackPointer := by cases r <;> rfl
@[simp] theorem CpuState.writeReg_programCounter : (s.writeReg r v).programCounter = s.programCounter := by
  cases r <;> rfl
@[simp] theorem CpuState.writeReg_cycles : (s.writeReg r v).cycles = s.cycles := by cases r <;> rfl
@[simp] theorem CpuState.writeReg_flags : (s.writeReg r v).flags = s.flags := by cases r <;> rfl

end Registers

section Flags
variable (f : CpuFlags) (g : Flag) (v : Bool)

@[simp] theorem CpuFlags.read_write_same : (f.write g v).read g = v := by cases g <;> rfl

theorem CpuFlags.read_write_other {g k : Flag} (h : k ≠ g) : (f.write g v).read k = f.read k := by
  cases g <;> cases k <;> first | rfl | exact absurd rfl h

end Flags

end Sys2Proof.Machine
end

