-- ==== Sys2Proof/Laws/Step.lean ====
section
/-! SUPPORT. What a step can do, said once: the answer is the transform's record. Runs, caller programs and pools of
invocations unfold one call at a time. -/

namespace Sys2Proof.Machine

theorem exec_daa_eq (s : State) : exec .daa s = .next { s with toCpu := s.toCpu.daa } := rfl

theorem step_eq (s : State) : step s = .next { s with toCpu := s.toCpu.daa } := rfl

/-- The inversion lemma of a step: its next state is the transform of the record. -/
theorem step_next_iff (s t : State) : step s = .next t ↔ t.toCpu = s.toCpu.daa := by
  rw [step_eq]
  constructor
  · intro h
    injection h with h
    rw [← h]
  · intro h
    cases t
    cases h
    rfl

theorem core_run_zero (s : State) : Sys2Proof.core.run 0 s = .next s := rfl

theorem core_run_succ (k : Nat) (s : State) :
    Sys2Proof.core.run (k + 1) s = Sys2Proof.core.run k ({ s with toCpu := s.toCpu.daa } : State) := rfl

@[simp] theorem runCalls_nil (s : State) : runCalls [] s = .next s := rfl

theorem runCalls_cons (c : Call) (cs : List Call) (s : State) :
    runCalls (c :: cs) s = runCalls cs { Call.apply c s with toCpu := (Call.apply c s).toCpu.daa } := rfl

@[simp] theorem Slot.run_run (x : Slot) : x.run.run = x.run := by cases x <;> rfl

theorem runSchedule_cons (i : Nat) (schedule : List Nat) (pool : List Slot) :
    runSchedule (i :: schedule) pool = runSchedule schedule (pool.modify i Slot.run) := rfl

/-- The transform's fields: what it writes, from its inputs alone. -/
theorem Cpu.daa_eq {Id : Type} (r : Cpu Id) : r.daa = r.writeOutputs r.daaInputs.outputs := rfl

end Sys2Proof.Machine
end

