-- ==== Sys2Proof/Tests/Slice0.lean ====
section
/-! SUPPORT. The model's own tests. Expected values are the spec's (each comment says where), and the witnesses meet the
hypotheses of the statements of Certificates/Slice0/Obligations.lean. -/

namespace Sys2Proof.Tests

open Sys2Proof.Machine Sys2Proof.Safety

/-- A record with the given accumulator, carry and auxCarry; other fields as after reset. -/
def rec1 (a : Byte) (cy ac : Bool) : State :=
  { State.reset with state := { State.reset.state with a := a, flags := ⟨false, false, ac, false, cy⟩ } }

/-- A record with the given accumulator and cycle counter; other fields as after reset. -/
def rec2 (a : Byte) (cycles : Word64) : State :=
  { State.reset with state := { State.reset.state with a := a, cycles := cycles } }

/-- The accumulator and flags of an outcome that is a next state. -/
def result : Host.Outcome State Fault Refusal → Option (Byte × CpuFlags)
  | .next t => some (t.state.a, t.state.flags)
  | .fault _ => none
  | .refused _ => none

/-- The state of an outcome that is a next state. -/
def nextOf : Host.Outcome State Fault Refusal → Option State
  | .next t => some t
  | .fault _ => none
  | .refused _ => none

/-! ### Well-formedness and decoding -/

/-- The instruction set has no check an instruction could fail (30_encoding.md R51, R52). -/
theorem test_wellFormed_daa : Instr.wellFormed .daa = true := by decide

/-- The smoke test for ill-formed input: the only ill-formed terms are raw words that are not one opcode byte (R49). -/
theorem test_decode_refuses_wide_word : decodeWord 8 0b100000000 = .error .notOneOpcodeByte := by decide

theorem test_decode_refuses_two_bytes : decodeWord 16 0b0000000000100111 = .error .notOneOpcodeByte := by decide

/-- Format OP8, opcode_table.json: every bit open; the match, the 8080's DAA, and all ones. -/
theorem test_decode_daa_match : decodeTableWord 8 0b00000000 = some .daa := by decide
theorem test_decode_daa_8080 : decodeTableWord 8 0b00100111 = some .daa := by decide
theorem test_decode_daa_ones : decodeTableWord 8 0b11111111 = some .daa := by decide

theorem test_encode_daa : encode .daa 0b00100111 = 0b00100111 := by decide

/-- The table of 10_state.md R33: paths and widths. -/
theorem test_field_table :
    Field.all.map (fun f => (f.path, f.width)) =
      [("state.a", some 8), ("state.b", some 8), ("state.c", some 8), ("state.d", some 8), ("state.e", some 8),
       ("state.h", some 8), ("state.l", some 8), ("state.stackPointer", some 16), ("state.programCounter", some 16),
       ("state.cycles", some 64), ("state.flags.sign", some 1), ("state.flags.zero", some 1),
       ("state.flags.auxCarry", some 1), ("state.flags.parity", some 1), ("state.flags.carry", some 1), ("id", none),
       ("opcode", some 8)] := by decide +kernel

/-! ### One step of DAA -/

/-- 95_test_vectors.md section 2, V5, V7, V8, V10, V13, V16, V18, V20: input a, carry, auxCarry; output a and SZAPC. -/
theorem test_daa_corner_vectors :
    ([(0x03, false, true), (0x99, false, false), (0x9A, false, false), (0xFF, false, false), (0x99, true, true),
      (0x7A, false, false), (0x94, false, true), (0x3C, false, true)] : List (Byte × Bool × Bool)).map
        (fun v => result (step (rec1 v.1 v.2.1 v.2.2))) =
      [some (0x09, ⟨false, false, false, true, false⟩), some (0x99, ⟨true, false, false, true, false⟩),
       some (0x00, ⟨false, true, true, true, true⟩), some (0x65, ⟨false, false, true, true, true⟩),
       some (0xFF, ⟨true, false, false, true, true⟩), some (0x80, ⟨true, false, true, false, false⟩),
       some (0x9A, ⟨true, false, false, true, false⟩), some (0x42, ⟨false, false, true, true, false⟩)] := by decide +kernel

/-- 95_test_vectors.md section 2, V23: passthrough of every other field, and cycles + 4. -/
theorem test_daa_passthrough :
    let s : State :=
      { state := { a := 0x42, b := 0x11, c := 0x22, d := 0x33, e := 0x44, h := 0x55, l := 0x66, stackPointer := 0xFFFE
                   programCounter := 0x1234, cycles := 10, flags := ⟨false, false, false, false, false⟩ }
        id := "x", opcode := 0xFF }
    nextOf (step s) =
      some { s with state := { s.state with cycles := 14, flags := ⟨false, false, false, true, false⟩ } } := by
  decide +kernel

/-! ### Witnesses: each meets all hypotheses of the statement named, one for each clause at a boundary value -/

theorem witness_StepRunsDecodedInstruction : ∃ s t : State, step s = .next t := ⟨rec1 0x9A false false, _, rfl⟩

theorem witness_CyclesPlusFour_wrap : (rec2 0x00 0xFFFFFFFFFFFFFFFF).state.cycles = 0xFFFFFFFFFFFFFFFF := by decide

theorem witness_LowCorrectionStep_holds :
    (rec1 0x0A false false).state.flags.auxCarry = true ∨ (rec1 0x0A false false).state.a.toNat % 16 > 9 := by decide

theorem witness_LowCorrectionStep_fails :
    ¬ ((rec1 0x09 false false).state.flags.auxCarry = true ∨ (rec1 0x09 false false).state.a.toNat % 16 > 9) := by decide

theorem witness_HighCorrectionForcesCarry_holds :
    HighTooLarge (rec1 0x9A false false).state.a.toNat (rec1 0x9A false false).state.flags.carry := by
  unfold HighTooLarge HighNibblesTooLarge; decide

theorem witness_HighCorrectionForcesCarry_fails :
    ¬ HighTooLarge (rec1 0x99 false false).state.a.toNat (rec1 0x99 false false).state.flags.carry := by
  unfold HighTooLarge HighNibblesTooLarge; decide

/-- The four corrections, for AccumulatorResult, SignZeroParityOfResult and AuxCarryOfCorrectionAddition. -/
theorem witness_IsCorrection_none : IsCorrection (0x99 : Byte).toNat false false 0x00 := by
  unfold IsCorrection LowTooLarge HighTooLarge HighNibblesTooLarge; decide
theorem witness_IsCorrection_low : IsCorrection (0x8A : Byte).toNat false false 0x06 := by
  unfold IsCorrection LowTooLarge HighTooLarge HighNibblesTooLarge; decide
theorem witness_IsCorrection_high : IsCorrection (0xA0 : Byte).toNat false false 0x60 := by
  unfold IsCorrection LowTooLarge HighTooLarge HighNibblesTooLarge; decide
theorem witness_IsCorrection_both : IsCorrection (0x9A : Byte).toNat false false 0x66 := by
  unfold IsCorrection LowTooLarge HighTooLarge HighNibblesTooLarge; decide

theorem witness_CarryIsSticky : (rec1 0x00 true false).state.flags.carry = true := by decide

theorem witness_OutputsDependOnFourInputs :
    let s := rec1 0x9A false true
    let s' : State := { s with opcode := 0xFF, id := "other" }
    s ≠ s' ∧ s.state.a = s'.state.a ∧ s.state.flags.carry = s'.state.flags.carry ∧
      s.state.flags.auxCarry = s'.state.flags.auxCarry ∧ s.state.cycles = s'.state.cycles := by decide

/-- 0x9A + 0x66 is exactly 256. -/
theorem witness_WrapImpliesCarry :
    IsCorrection (rec1 0x9A false false).state.a.toNat (rec1 0x9A false false).state.flags.carry
      (rec1 0x9A false false).state.flags.auxCarry 0x66 ∧ (rec1 0x9A false false).state.a.toNat + 0x66 ≥ 256 := by
  unfold IsCorrection LowTooLarge HighTooLarge HighNibblesTooLarge; decide

/-- 0x99 + 0x99 + 1, the largest sum: it carries out of both nibbles. -/
theorem witness_PackedBcdSumCorrected :
    let s := rec1 0x33 true true
    IsPackedBcd 0x99 ∧ 1 ≤ 1 ∧ s.state.a.toNat = (0x99 + 0x99 + 1) % 256 ∧
      s.state.flags.carry = decide (0x99 + 0x99 + 1 ≥ 256) ∧
      s.state.flags.auxCarry = decide (0x99 % 16 + 0x99 % 16 + 1 > 0x0F) := by
  unfold IsPackedBcd; decide

theorem witness_ConcurrentInvocationsIndependent :
    [rec1 0x9A false false, rec1 0x05 false false][1]? = some (rec1 0x05 false false) ∧ 1 ∈ [0, 1] ∧ 1 ∉ [0] := by decide

theorem witness_FiveInvocationsReachRegime : 5 ≤ 5 := by decide

theorem witness_SetFlagsTruthfulKept : ∃ t, SetFlagsTruthful (rec1 0x05 true true) ∧ step (rec1 0x05 true true) = .next t := by
  refine ⟨_, ?_, rfl⟩
  unfold SetFlagsTruthful; decide

theorem witness_SettledKept : ∃ t, Settled (rec1 0x99 false false) ∧ step (rec1 0x99 false false) = .next t := by
  refine ⟨_, ?_, rfl⟩
  unfold Settled IsPackedBcd; decide

theorem witness_CarryLatchedKept :
    ∃ t u : State, CarryLatched (rec1 0xF9 true false) ∧ step (rec1 0xF9 true false) = .next t ∧
      Sys2Proof.core.run 8 (rec1 0xF9 true false) = .next u := by
  refine ⟨_, _, ?_, rfl, rfl⟩
  unfold CarryLatched; decide

theorem witness_TwoStageCorrectionEquivalent_low :
    LowTooLarge (rec1 0xFF false false).state.a.toNat (rec1 0xFF false false).state.flags.auxCarry ∧
      261 = (rec1 0xFF false false).state.a.toNat + 6 ∧ 261 / 16 > 9 := by
  unfold LowTooLarge; decide

theorem witness_TwoStageCorrectionEquivalent_none :
    ¬ LowTooLarge (rec1 0x99 false false).state.a.toNat (rec1 0x99 false false).state.flags.auxCarry ∧
      0x99 = (rec1 0x99 false false).state.a.toNat ∧
      ¬ ((rec1 0x99 false false).state.flags.carry = true ∨ 0x99 / 16 > 9) := by
  unfold LowTooLarge; decide

theorem witness_DecodeEncodeAgree : Instr.wellFormed (decodeOpcode 0xFF) = true := by decide

theorem witness_PlacedWordRuns : decodeTableWord 8 0xFF = some .daa := by decide

theorem witness_FieldsAreTheWholeState :
    ∀ f : Field, (rec1 0x9A false false).read f = (rec1 0x9A false false).read f := fun _ => rfl

theorem witness_SourceScenarios :
    (rec1 0x9A false false).state.a = 0x9A ∧ (rec1 0x05 false false).state.a = 0x05 ∧
      (rec1 0x00 true false).state.a = 0x00 ∧ (rec1 0x00 true false).state.flags.carry = true ∧
      (rec1 0x00 true false).state.flags.auxCarry = false := by decide

end Sys2Proof.Tests
end

section
/-! SUPPORT. What DAA reads and writes (10_state.md R23 to R35): four written flags of the transform and its high correction,
what the transform does not see, its frame, and the statements of the state family settled from these. -/

namespace Sys2Proof.Machine

open Sys2Proof.Safety

section Transform
variable {Id : Type} (r : Cpu Id)

/-! ### What the transform writes -/

theorem Cpu.daa_sign_iff : r.daa.state.flags.sign = true ↔ r.daa.state.a.toNat ≥ 128 := signOf_iff _

theorem Cpu.daa_zero_iff : r.daa.state.flags.zero = true ↔ r.daa.state.a.toNat = 0 := zeroOf_iff _

theorem Cpu.daa_parity_iff : r.daa.state.flags.parity = true ↔ onesOf r.daa.state.a.toNat % 2 = 0 := parityOf_iff _

theorem Cpu.daa_carry_iff :
    r.daa.state.flags.carry = true ↔ HighTooLarge r.state.a.toNat r.state.flags.carry := carryOf_iff _ _

/-- 40_daa.md R61, the branch in which the high correction happens. -/
theorem correction_of_highTooLarge {a : Byte} {cy : Bool} (ac : Bool) (h : HighTooLarge a.toNat cy) :
    correction a cy ac = lowCorrection a ac + 0x60 :=
  if_pos ((highCondition_iff a cy).mpr h)

/-! ### What the transform does not see -/

@[simp] theorem Cpu.daa_id : r.daa.id = r.id := by
  rw [Cpu.daa_eq, Cpu.writeOutputs_id]

@[simp] theorem Cpu.daa_opcode : r.daa.opcode = r.opcode := by
  rw [Cpu.daa_eq, Cpu.writeOutputs_opcode]

theorem Cpu.daaInputs_mapId {α β : Type} (f : α → β) (r : Cpu α) : (r.mapId f).daaInputs = r.daaInputs := rfl

theorem Cpu.writeOutputs_mapId {α β : Type} (f : α → β) (r : Cpu α) (o : DaaOutputs) :
    (r.mapId f).writeOutputs o = (r.writeOutputs o).mapId f := rfl

theorem Cpu.daa_mapId {α β : Type} (f : α → β) (r : Cpu α) : (r.mapId f).daa = r.daa.mapId f := by
  rw [Cpu.daa_eq, Cpu.daaInputs_mapId, Cpu.writeOutputs_mapId, ← Cpu.daa_eq]

/-- The record with another sign, zero and parity: the flags the transform writes without reading. -/
def Cpu.withSignZeroParity (sg z p : Bool) : Cpu Id :=
  { r with state := { r.state with flags := { r.state.flags with sign := sg, zero := z, parity := p } } }

theorem Cpu.daaInputs_withSignZeroParity (sg z p : Bool) :
    (r.withSignZeroParity sg z p).daaInputs = r.daaInputs := rfl

theorem Cpu.writeOutputs_withSignZeroParity (sg z p : Bool) (o : DaaOutputs) :
    (r.withSignZeroParity sg z p).writeOutputs o = r.writeOutputs o := rfl

theorem Cpu.daa_withSignZeroParity (sg z p : Bool) : (r.withSignZeroParity sg z p).daa = r.daa := by
  rw [Cpu.daa_eq, Cpu.daaInputs_withSignZeroParity, Cpu.writeOutputs_withSignZeroParity, ← Cpu.daa_eq]

end Transform

section Closed
variable (s : State)

theorem State.daaInputs_withOpcode (op : Byte) : (s.withOpcode op).toCpu.daaInputs = s.toCpu.daaInputs := rfl

theorem State.writeOutputs_withOpcode (op : Byte) (o : DaaOutputs) :
    (s.withOpcode op).toCpu.writeOutputs o = (State.withOpcode ⟨s.toCpu.writeOutputs o⟩ op).toCpu := rfl

theorem State.daa_withOpcode (op : Byte) :
    (s.withOpcode op).toCpu.daa = (State.withOpcode ⟨s.toCpu.daa⟩ op).toCpu := by
  rw [Cpu.daa_eq, State.daaInputs_withOpcode, State.writeOutputs_withOpcode, ← Cpu.daa_eq]

/-! ### The frame, by field name -/

/-- The destinations of DAA (10_state.md R35). -/
def daaWrites : List Field :=
  [Field.reg .a, .cycles, .flag .sign, .flag .zero, .flag .auxCarry, .flag .parity, .flag .carry]

theorem flag_mem_daaWrites (g : Flag) : Field.flag g ∈ daaWrites := by cases g <;> decide

theorem readReg_writeOutputs_of_ne_a {Id : Type} (r : Cpu Id) (o : DaaOutputs) {q : Reg} (h : q ≠ .a) :
    (r.writeOutputs o).state.readReg q = r.state.readReg q := by
  cases q with
  | a => exact absurd rfl h
  | b | c | d | e | h | l => rfl

theorem State.read_writeOutputs_of_notMem (o : DaaOutputs) {f : Field} (hf : f ∉ daaWrites) :
    State.read ⟨s.toCpu.writeOutputs o⟩ f = s.read f := by
  cases f with
  | reg q =>
    have hq : q ≠ .a := by
      rintro rfl
      exact hf (by decide)
    exact congrArg FieldValue.byte (readReg_writeOutputs_of_ne_a s.toCpu o hq)
  | cycles => exact absurd (by decide) hf
  | flag g => exact absurd (flag_mem_daaWrites g) hf
  | stackPointer | programCounter | id | opcode => rfl

/-- A record in which DAA changes every field it writes: 0x9A becomes 0x00, so the set sign is cleared and the four clear
flags are set. -/
def everyWriteShows : State :=
  { State.reset with state := { State.reset.state with a := 0x9A, flags := ⟨true, false, false, false, false⟩ } }

theorem read_daa_everyWriteShows_ne :
    ∀ f ∈ daaWrites, State.read ⟨everyWriteShows.toCpu.daa⟩ f ≠ everyWriteShows.read f := by
  decide

end Closed

end Sys2Proof.Machine

namespace Sys2Proof

open Sys2Proof.Machine Sys2Proof.Safety

/-- Settles O12: the output carry is the high condition of R61, of which the input carry is one disjunct. -/
theorem carryIsSticky : Obligations.CarryIsSticky := by
  intro s
  refine ⟨_, exec_daa_eq s, s.toCpu.daa_carry_iff, fun hcy => ?_⟩
  have hhigh : HighTooLarge s.state.a.toNat s.state.flags.carry := .inl hcy
  exact ⟨s.toCpu.daa_carry_iff.mpr hhigh, correction_of_highTooLarge _ hhigh⟩

/-- Settles O14: the frame of `writeOutputs`, and one record whose seven destinations all change. -/
theorem writesExactlySevenFields : Obligations.WritesExactlySevenFields :=
  ⟨fun s => ⟨_, exec_daa_eq s, fun _ hf => s.read_writeOutputs_of_notMem _ hf⟩,
    fun f hf => ⟨everyWriteShows, _, exec_daa_eq everyWriteShows, read_daa_everyWriteShows_ne f hf⟩⟩

/-- Settles O4: the opcode is no input of the transform, so replacing it commutes with the step. -/
theorem opcodeNotDispatchedOn : Obligations.OpcodeNotDispatchedOn := by
  intro s op
  refine ⟨_, step_eq s, s.toCpu.daa_opcode, ?_⟩
  exact (step_next_iff _ _).mpr (s.daa_withOpcode op).symm

/-- Settles O10: the three flags are no inputs of the transform and are overwritten by it with tests of the result. -/
theorem signZeroParityInputsUnread : Obligations.SignZeroParityInputsUnread := by
  intro s sg z p
  have hsame := exec_daa_eq ⟨s.toCpu.withSignZeroParity sg z p⟩
  rw [Cpu.daa_withSignZeroParity] at hsame
  exact ⟨_, exec_daa_eq s, hsame, s.toCpu.daa_sign_iff, s.toCpu.daa_zero_iff, s.toCpu.daa_parity_iff⟩

/-- Settles O23: the transform commutes with every relabelling of the token and keeps it. -/
theorem idNeverRead : Obligations.IdNeverRead :=
  ⟨fun _ _ f r => ⟨r.daa_mapId f, r.daa_id⟩, fun s => ⟨_, exec_daa_eq s, rfl, s.toCpu.daa_id⟩⟩

end Sys2Proof
end

section
/-! PROOFS of the family 30_encoding.md: the decoder accepts every opcode byte. -/

namespace Sys2Proof.Machine

/-- 30_encoding.md R52: the decoder is constant. -/
@[simp] theorem decodeOpcode_eq_daa (op : Byte) : decodeOpcode op = .daa := rfl

/-- A step executes DAA whatever byte the record's `opcode` field holds. -/
theorem step_eq_exec_daa (s : State) : step s = exec .daa s := by
  rw [step, decodeOpcode_eq_daa]

end Sys2Proof.Machine

namespace Sys2Proof

open Sys2Proof.Machine

/-- Settles O3: the decoder gives DAA on every byte, so a step is the execution of DAA, which completes. -/
theorem everyOpcodePerformsDaa : Obligations.EveryOpcodePerformsDaa := by
  intro op s
  have hexec := exec_daa_eq (s.withOpcode op)
  exact ⟨decodeOpcode_eq_daa op, _, (step_eq_exec_daa _).trans hexec, hexec⟩

end Sys2Proof
end

section
/-! PROOFS of the family 40_daa.md: the correction of R60 and R61 as its branches and as the one number the cases of
`IsCorrection` name, the rest of what the transform writes (R58, R62 to R67), and the statements settled from these. -/

namespace Sys2Proof.Machine

open Sys2Proof.Safety

/-! ### The correction -/

section Correction
variable {a : Byte} {cy ac : Bool}

theorem lowCorrection_of_lowTooLarge (h : LowTooLarge a.toNat ac) : lowCorrection a ac = 0x06 :=
  if_pos ((lowCondition_iff a ac).mpr h)

theorem lowCorrection_of_not_lowTooLarge (h : ¬ LowTooLarge a.toNat ac) : lowCorrection a ac = 0x00 :=
  if_neg fun hlow => h ((lowCondition_iff a ac).mp hlow)

theorem lowCorrection_eq_zero_or_six (a : Byte) (ac : Bool) : lowCorrection a ac = 0x00 ∨ lowCorrection a ac = 0x06 := by
  by_cases h : LowTooLarge a.toNat ac
  · exact .inr (lowCorrection_of_lowTooLarge h)
  · exact .inl (lowCorrection_of_not_lowTooLarge h)

/-- 40_daa.md R61, the branch in which the high correction does not happen. -/
theorem correction_of_not_highTooLarge (ac : Bool) (h : ¬ HighTooLarge a.toNat cy) :
    correction a cy ac = lowCorrection a ac :=
  if_neg fun hhigh => h ((highCondition_iff a cy).mp hhigh)

/-- 40_daa.md R67: step 4 leaves carry as it is when its condition fails. -/
theorem carryOf_of_not_highTooLarge (h : ¬ HighTooLarge a.toNat cy) : carryOf a cy = cy :=
  if_neg fun hhigh => h ((highCondition_iff a cy).mp hhigh)

/-- The four cases of `IsCorrection` exclude each other and name the model's correction. -/
theorem isCorrection_iff_eq_correction (a : Byte) (cy ac : Bool) (c : Nat) :
    IsCorrection a.toNat cy ac c ↔ c = correction a cy ac := by
  by_cases hhigh : HighTooLarge a.toNat cy
  · rw [correction_of_highTooLarge ac hhigh]
    by_cases hlow : LowTooLarge a.toNat ac
    · simp [IsCorrection, hhigh, hlow, lowCorrection_of_lowTooLarge hlow]
    · simp [IsCorrection, hhigh, hlow, lowCorrection_of_not_lowTooLarge hlow]
  · rw [correction_of_not_highTooLarge ac hhigh]
    by_cases hlow : LowTooLarge a.toNat ac
    · simp [IsCorrection, hhigh, hlow, lowCorrection_of_lowTooLarge hlow]
    · simp [IsCorrection, hhigh, hlow, lowCorrection_of_not_lowTooLarge hlow]

end Correction

/-- 40_daa.md R65: no case of the correction has a low nibble other than 6 and 0. -/
theorem isCorrection_lowNibble {n c : Nat} {cy ac : Bool} (h : IsCorrection n cy ac c) :
    c &&& 0x0F = 0x6 ∨ c &&& 0x0F = 0x0 := by
  obtain ⟨-, -, rfl⟩ | ⟨-, -, rfl⟩ | ⟨-, -, rfl⟩ | ⟨-, -, rfl⟩ := h
  · exact .inr rfl
  · exact .inl rfl
  · exact .inr rfl
  · exact .inl rfl

/-! ### What the transform writes -/

section Transform
variable {Id : Type} (r : Cpu Id)

theorem nextCycles_allOnes : nextCycles 0xFFFFFFFFFFFFFFFF = 3 := by decide

theorem Cpu.daa_cycles : r.daa.state.cycles = nextCycles r.state.cycles := by
  rw [Cpu.daa_eq, Cpu.writeOutputs_cycles]
  rfl

/-- 40_daa.md R62, for the correction named by its four cases. -/
theorem Cpu.daa_a_toNat {c : Nat} (h : IsCorrection r.state.a.toNat r.state.flags.carry r.state.flags.auxCarry c) :
    r.daa.state.a.toNat = (r.state.a.toNat + c) % 256 := by
  rw [(isCorrection_iff_eq_correction _ _ _ c).mp h]
  exact addCorrection_toNat _ _

theorem signOf_eq_testBit (v : Byte) : signOf v = v.toNat.testBit 7 := rfl

theorem Cpu.daa_sign : r.daa.state.flags.sign = r.daa.state.a.toNat.testBit 7 := signOf_eq_testBit _

/-- 40_daa.md R65, for the correction named by its four cases. -/
theorem Cpu.daa_auxCarry_iff {c : Nat} (h : IsCorrection r.state.a.toNat r.state.flags.carry r.state.flags.auxCarry c) :
    r.daa.state.flags.auxCarry = true ↔ (r.state.a.toNat &&& 0x0F) + (c &&& 0x0F) > 0x0F := by
  rw [Nat.and_two_pow_sub_one_eq_mod _ 4, Nat.and_two_pow_sub_one_eq_mod _ 4,
    (isCorrection_iff_eq_correction _ _ _ c).mp h]
  exact auxCarryOf_iff _ _

theorem Cpu.daa_carry_of_not_highTooLarge (h : ¬ HighTooLarge r.state.a.toNat r.state.flags.carry) :
    r.daa.state.flags.carry = r.state.flags.carry :=
  carryOf_of_not_highTooLarge h

end Transform

/-- 40_daa.md R69. -/
theorem State.samePassthrough_daa (s : State) : SamePassthrough s ⟨s.toCpu.daa⟩ := by
  simp [SamePassthrough, Cpu.daa_eq]

end Sys2Proof.Machine

namespace Sys2Proof

open Sys2Proof.Machine Sys2Proof.Safety

/-- Settles O7: each branch of R61, with what it does to the correction and to carry. -/
theorem highCorrectionForcesCarry : Obligations.HighCorrectionForcesCarry := by
  intro s
  refine ⟨_, exec_daa_eq s, fun hhigh => ?_, fun hhigh => ?_⟩
  · have hcorr := correction_of_highTooLarge s.state.flags.auxCarry hhigh
    have hvalues := lowCorrection_eq_zero_or_six s.state.a s.state.flags.auxCarry
    exact ⟨hcorr, by omega, s.toCpu.daa_carry_iff.mpr hhigh⟩
  · exact ⟨correction_of_not_highTooLarge _ hhigh, s.toCpu.daa_carry_of_not_highTooLarge hhigh⟩

/-- Settles O8: the sum with the correction the cases name, and the frame of `writeOutputs`. -/
theorem accumulatorResult : Obligations.AccumulatorResult :=
  fun s _ hc => ⟨_, exec_daa_eq s, s.toCpu.daa_a_toNat hc, fun _ hr => readReg_writeOutputs_of_ne_a _ _ hr⟩

/-- Settles O9: the three flags are tests of the output accumulator, which is the sum modulo 256. -/
theorem signZeroParityOfResult : Obligations.SignZeroParityOfResult := by
  intro s c hc
  rw [← s.toCpu.daa_a_toNat hc]
  exact ⟨_, exec_daa_eq s, Bool.eq_iff_iff.mp s.toCpu.daa_sign, s.toCpu.daa_zero_iff, s.toCpu.daa_parity_iff⟩

/-- Settles O11: the flag is the low-nibble sum compared with 15; a nibble is at most 15 and the correction's is 6 or 0. -/
theorem auxCarryOfCorrectionAddition : Obligations.AuxCarryOfCorrectionAddition := by
  intro s c hc
  have hcorr := isCorrection_lowNibble hc
  have hnibble : s.state.a.toNat &&& 0x0F ≤ 0x0F := Nat.and_le_right
  exact ⟨hcorr, by omega, _, exec_daa_eq s, s.toCpu.daa_auxCarry_iff hc⟩

/-- Settles O5: the counter is `nextCycles` of the old one. -/
theorem cyclesPlusFour : Obligations.CyclesPlusFour := by
  intro s
  have hcycles := s.toCpu.daa_cycles
  refine ⟨_, exec_daa_eq s, ?_, fun hmax => ?_⟩
  · exact (congrArg BitVec.toNat hcycles).trans (nextCycles_toNat _)
  · exact hcycles.trans ((congrArg nextCycles hmax).trans nextCycles_allOnes)

/-- Settles O6: the two branches of R60. -/
theorem lowCorrectionStep : Obligations.LowCorrectionStep :=
  fun _ => ⟨lowCorrection_of_lowTooLarge, lowCorrection_of_not_lowTooLarge⟩

/-- Settles O13: `writeOutputs` leaves the ten fields. -/
theorem passthroughUnchanged : Obligations.PassthroughUnchanged :=
  fun s => ⟨_, exec_daa_eq s, s.samePassthrough_daa⟩

end Sys2Proof
end

section
/-! PROOFS of the family 60_exceptions.md: every outcome of the block is a next state (R80, R82). -/

namespace Sys2Proof.Machine

open Sys2Proof.Safety

/-- 60_exceptions.md R80, one case per instruction: no arm of `exec` faults or refuses. -/
theorem exec_completes (i : Instr) (s : State) : Completes (exec i s) := by
  cases i with
  | daa => exact ⟨_, exec_daa_eq s⟩

/-- What a step runs is some decoded instruction, and every instruction completes. -/
theorem step_completes (s : State) : Completes (step s) :=
  exec_completes (decodeOpcode s.opcode) s

/-- No constructor builds a fault. -/
theorem not_nonempty_fault : ¬ Nonempty Fault := by
  rintro ⟨f⟩
  cases f

end Sys2Proof.Machine

namespace Sys2Proof

open Sys2Proof.Machine

/-- Settles O1: every instruction completes, hence every step does, and the type of faults has no constructor. -/
theorem noInputTrapsFaultsOrStops : Obligations.NoInputTrapsFaultsOrStops :=
  ⟨exec_completes, step_completes, not_nonempty_fault⟩

end Sys2Proof
end

section
/-! PROOFS of the laws of 40_daa.md section 3 (R72 to R79) and of the invariants: the transform in closed form over natural
numbers, one invocation as a function of the state, what it keeps, and runs as its iterates. -/

namespace Sys2Proof.Machine

open Sys2Proof.Safety

/-! ### The correction and the flags in closed form -/

theorem isCorrection_correction (a : Byte) (cy ac : Bool) : IsCorrection a.toNat cy ac (correction a cy ac) :=
  (isCorrection_iff_eq_correction a cy ac _).mpr rfl

/-- 40_daa.md R73: the nibble condition of R61 is one comparison. -/
theorem highNibblesTooLarge_iff (n : Nat) : HighNibblesTooLarge n ↔ n > 0x99 := by
  unfold HighNibblesTooLarge
  omega

theorem highTooLarge_iff (n : Nat) (cy : Bool) : HighTooLarge n cy ↔ cy = true ∨ n > 0x99 := by
  rw [HighTooLarge, highNibblesTooLarge_iff]

/-- The high correction is a multiple of 16, so only the low one shows in the low nibble. -/
theorem correction_mod_sixteen (a : Byte) (cy ac : Bool) : correction a cy ac % 16 = lowCorrection a ac := by
  have hlow := lowCorrection_eq_zero_or_six a ac
  by_cases hhigh : HighTooLarge a.toNat cy
  · rw [correction_of_highTooLarge ac hhigh]
    omega
  · rw [correction_of_not_highTooLarge ac hhigh]
    omega

/-- 40_daa.md R74, for the flag's computation: a low digit above 9 gets 6 and carries; another gets at most 15. -/
theorem auxCarryOf_correction_iff (a : Byte) (cy ac : Bool) :
    auxCarryOf a (correction a cy ac) = true ↔ a.toNat % 16 > 9 := by
  rw [auxCarryOf_iff, correction_mod_sixteen]
  by_cases hlow : LowTooLarge a.toNat ac
  · rw [lowCorrection_of_lowTooLarge hlow]
    omega
  · have hdigit : ¬ a.toNat % 16 > 9 := fun h => hlow (.inr h)
    rw [lowCorrection_of_not_lowTooLarge hlow]
    omega

/-! ### One invocation as a function of the state -/

/-- The state after one invocation. -/
def State.invoke (s : State) : State := ⟨s.toCpu.daa⟩

theorem exec_daa_eq_invoke (s : State) : exec .daa s = .next s.invoke := exec_daa_eq s

theorem step_eq_invoke (s : State) : step s = .next s.invoke := step_eq s

theorem eq_invoke_of_step {s t : State} (h : step s = .next t) : t = s.invoke := by
  rw [step_eq_invoke] at h
  exact (Host.Outcome.next.inj h).symm

section Invoke
variable (s : State)

/-- 40_daa.md R73. -/
theorem State.invoke_carry_iff :
    s.invoke.state.flags.carry = true ↔ s.state.flags.carry = true ∨ s.state.a.toNat > 0x99 :=
  (s.toCpu.daa_carry_iff).trans (highTooLarge_iff _ _)

theorem State.invoke_carry :
    s.invoke.state.flags.carry = (s.state.flags.carry || decide (s.state.a.toNat > 0x99)) := by
  rw [Bool.eq_iff_iff, s.invoke_carry_iff]
  simp

/-- 40_daa.md R74. -/
theorem State.invoke_auxCarry : s.invoke.state.flags.auxCarry = decide (s.state.a.toNat % 16 > 9) := by
  rw [Bool.eq_iff_iff, decide_eq_true_eq]
  exact auxCarryOf_correction_iff _ _ _

/-- 40_daa.md R62. -/
theorem State.invoke_a_toNat :
    s.invoke.state.a.toNat
      = (s.state.a.toNat + correction s.state.a s.state.flags.carry s.state.flags.auxCarry) % 256 :=
  s.toCpu.daa_a_toNat (isCorrection_correction _ _ _)

/-- The accumulator after one invocation, where the high correction does not happen: nothing wraps. -/
theorem State.invoke_a_toNat_of_not_high (h : ¬ (s.state.flags.carry = true ∨ s.state.a.toNat > 0x99)) :
    s.invoke.state.a.toNat = s.state.a.toNat + lowCorrection s.state.a s.state.flags.auxCarry := by
  have hlow := lowCorrection_eq_zero_or_six s.state.a s.state.flags.auxCarry
  rw [s.invoke_a_toNat, correction_of_not_highTooLarge _ (mt (highTooLarge_iff _ _).mp h)]
  omega

/-- The accumulator after one invocation, where the high correction happens. -/
theorem State.invoke_a_toNat_of_high (h : s.state.flags.carry = true ∨ s.state.a.toNat > 0x99) :
    s.invoke.state.a.toNat = (s.state.a.toNat + lowCorrection s.state.a s.state.flags.auxCarry + 0x60) % 256 := by
  rw [s.invoke_a_toNat, correction_of_highTooLarge _ ((highTooLarge_iff _ _).mpr h), Nat.add_assoc]

end Invoke

/-! ### The two invariants -/

section Invariants
variable {s : State}

theorem not_lowTooLarge {n : Nat} {ac : Bool} (hac : ac = false) (hdigit : n % 16 ≤ 9) : ¬ LowTooLarge n ac := by
  rintro (h | h)
  · exact absurd (hac.symm.trans h) (by decide)
  · omega

theorem not_high_of_settled (h : Settled s) : ¬ (s.state.flags.carry = true ∨ s.state.a.toNat > 0x99) := by
  obtain ⟨⟨-, hhi, hlo⟩, hcy, -⟩ := h
  rintro (h | h)
  · exact absurd (hcy.symm.trans h) (by decide)
  · omega

/-- A settled record gets no correction. -/
theorem invoke_a_of_settled (h : Settled s) : s.invoke.state.a = s.state.a := by
  have hhigh := not_high_of_settled h
  obtain ⟨⟨-, -, hlo⟩, -, hac⟩ := h
  apply BitVec.eq_of_toNat_eq
  rw [s.invoke_a_toNat_of_not_high hhigh, lowCorrection_of_not_lowTooLarge (not_lowTooLarge hac hlo), Nat.add_zero]

theorem settled_invoke (h : Settled s) : Settled s.invoke := by
  have ha := invoke_a_of_settled h
  have hhigh := not_high_of_settled h
  obtain ⟨⟨hbyte, hhi, hlo⟩, -, -⟩ := h
  refine ⟨ha ▸ ⟨hbyte, hhi, hlo⟩, ?_, ?_⟩
  · exact Bool.eq_false_iff.mpr (mt s.invoke_carry_iff.mp hhigh)
  · rw [s.invoke_auxCarry, decide_eq_false_iff_not]
    exact Nat.not_lt.mpr hlo

/-- A latched record gets the high correction alone. -/
theorem invoke_a_toNat_of_carryLatched (h : CarryLatched s) :
    s.invoke.state.a.toNat = (s.state.a.toNat + 0x60) % 256 := by
  obtain ⟨hcy, hac, hlo⟩ := h
  rw [s.invoke_a_toNat_of_high (.inl hcy), lowCorrection_of_not_lowTooLarge (not_lowTooLarge hac hlo), Nat.add_zero]

theorem carryLatched_invoke (h : CarryLatched s) : CarryLatched s.invoke := by
  have ha := invoke_a_toNat_of_carryLatched h
  obtain ⟨hcy, -, hlo⟩ := h
  refine ⟨s.invoke_carry_iff.mpr (.inl hcy), ?_, ?_⟩
  · rw [s.invoke_auxCarry, decide_eq_false_iff_not]
    exact Nat.not_lt.mpr hlo
  · omega

end Invariants

/-! ### Runs are iterates -/

theorem core_run_eq_iterate (k : Nat) (s : State) : Sys2Proof.core.run k s = .next (State.invoke^[k] s) := by
  induction k generalizing s with
  | zero => exact core_run_zero s
  | succ k ih => exact (core_run_succ k s).trans (ih s.invoke)

theorem eq_iterate_of_core_run {k : Nat} {s t : State} (h : Sys2Proof.core.run k s = .next t) :
    t = State.invoke^[k] s :=
  (Host.Outcome.next.inj ((core_run_eq_iterate k s).symm.trans h)).symm

theorem carryLatched_iterate {s : State} (h : CarryLatched s) (k : Nat) : CarryLatched (State.invoke^[k] s) :=
  Function.Iterate.rec CarryLatched h (fun _ => carryLatched_invoke) k

theorem iterate_a_toNat_of_carryLatched {s : State} (h : CarryLatched s) (k : Nat) :
    (State.invoke^[k] s).state.a.toNat = (s.state.a.toNat + 0x60 * k) % 256 := by
  induction k with
  | zero => exact (Nat.mod_eq_of_lt s.state.a.isLt).symm
  | succ k ih =>
    rw [Function.iterate_succ_apply', invoke_a_toNat_of_carryLatched (carryLatched_iterate h k), ih]
    omega

end Sys2Proof.Machine

namespace Sys2Proof

open Sys2Proof.Machine Sys2Proof.Safety

/-- Settles O31: no condition of R60 or R61 holds of a settled record. -/
theorem settledKept : Obligations.SettledKept := by
  intro s t hs hstep
  cases eq_invoke_of_step hstep
  exact ⟨settled_invoke hs, invoke_a_of_settled hs⟩

/-- Settles O32: each invocation adds 0x60 alone, and eight times 0x60 is three times 256. -/
theorem carryLatchedKept : Obligations.CarryLatchedKept := by
  refine ⟨fun s t hs hstep => ?_, fun s t hs hrun => ?_⟩
  · cases eq_invoke_of_step hstep
    exact ⟨carryLatched_invoke hs, invoke_a_toNat_of_carryLatched hs⟩
  · cases eq_iterate_of_core_run hrun
    refine ⟨carryLatched_iterate hs 8, BitVec.eq_of_toNat_eq ?_⟩
    have ha := iterate_a_toNat_of_carryLatched hs 8
    have hbyte := s.state.a.isLt
    omega

end Sys2Proof
end

section
/-! PROOFS of the laws of 40_daa.md section 3 on the outputs: R72 to R77, the two-stage form of 93_implementation_defined.md
N1, the inputs of 10_state.md section 6 and the scenarios of 95_test_vectors.md section 1. -/

namespace Sys2Proof.Machine

open Sys2Proof.Safety

/-! ### R75: a wrap implies carry -/

/-- Without the high correction the accumulator is at most 0x99 and gains at most 6. -/
theorem highTooLarge_of_wrap {n c : Nat} {cy ac : Bool} (hc : IsCorrection n cy ac c) (hwrap : n + c ≥ 256) :
    HighTooLarge n cy := by
  by_contra hhigh
  have hn : ¬ n > 0x99 := fun h => hhigh ((highTooLarge_iff n cy).mpr (.inr h))
  obtain ⟨-, -, rfl⟩ | ⟨-, -, rfl⟩ | ⟨-, h, -⟩ | ⟨-, h, -⟩ := hc
  · omega
  · omega
  · exact hhigh h
  · exact hhigh h

/-- R75's example for the converse: accumulator 0x00 with carry set. -/
def carryWithoutWrap : State := Edit.apply (.setFlag .carry true) State.reset

theorem isCorrection_carryWithoutWrap :
    IsCorrection carryWithoutWrap.state.a.toNat carryWithoutWrap.state.flags.carry
      carryWithoutWrap.state.flags.auxCarry 0x60 :=
  .inr (.inr (.inl ⟨not_lowTooLarge rfl (by decide), .inl rfl, rfl⟩))

/-! ### N1: the two-stage correction -/

/-- The sum of the first stage: the accumulator plus 6 where R60's condition holds, not cut to 8 bits. -/
def IsFirstStage (n : Nat) (ac : Bool) (v : Nat) : Prop :=
  (LowTooLarge n ac ∧ v = n + 6) ∨ (¬ LowTooLarge n ac ∧ v = n)

theorem isFirstStage_eq {a : Byte} {ac : Bool} {v : Nat} (h : IsFirstStage a.toNat ac v) :
    v = a.toNat + lowCorrection a ac := by
  obtain ⟨hlow, rfl⟩ | ⟨hlow, rfl⟩ := h
  · rw [lowCorrection_of_lowTooLarge hlow]
  · rw [lowCorrection_of_not_lowTooLarge hlow, Nat.add_zero]

/-- The high digit of the first stage's sum is above 9 exactly where the accumulator is above 0x99: from 0x9A to 0x9F the
low digit needs the 6 that carries into the high one. -/
theorem firstStage_high_iff {n v : Nat} {ac : Bool} (h : IsFirstStage n ac v) : v / 16 > 9 ↔ n > 0x99 := by
  obtain ⟨-, rfl⟩ | ⟨hlow, rfl⟩ := h
  · omega
  · have hdigit : ¬ v % 16 > 9 := fun h => hlow (.inr h)
    omega

section TwoStage
variable {s : State} {v : Nat} (h : IsFirstStage s.state.a.toNat s.state.flags.auxCarry v)
include h

theorem invoke_carry_iff_of_firstStage :
    s.invoke.state.flags.carry = true ↔ s.state.flags.carry = true ∨ v / 16 > 9 := by
  rw [firstStage_high_iff h, s.invoke_carry_iff]

theorem invoke_a_toNat_of_secondStage (hhigh : s.state.flags.carry = true ∨ v / 16 > 9) :
    s.invoke.state.a.toNat = (v + 0x60) % 256 := by
  rw [firstStage_high_iff h] at hhigh
  rw [s.invoke_a_toNat_of_high hhigh, isFirstStage_eq h]

theorem invoke_a_toNat_of_not_secondStage (hhigh : ¬ (s.state.flags.carry = true ∨ v / 16 > 9)) :
    s.invoke.state.a.toNat = v := by
  rw [firstStage_high_iff h] at hhigh
  rw [s.invoke_a_toNat_of_not_high hhigh, isFirstStage_eq h]

end TwoStage

/-! ### R76: packed-BCD sums -/

/-- The encoding of the decimal sum: the binary sum of the bytes, and 6 where the low decimal digits carry. -/
theorem toBcd_add_bcdValue (x y k : Nat) :
    toBcd (bcdValue x + bcdValue y + k) = x + y + k + 6 * ((x % 16 + y % 16 + k) / 10) := by
  have htens : (bcdValue x + bcdValue y + k) / 10 = x / 16 + y / 16 + (x % 16 + y % 16 + k) / 10 := by
    unfold bcdValue
    omega
  unfold toBcd
  rw [htens]
  unfold bcdValue at htens ⊢
  omega

theorem toBcd_mod_hundred {n : Nat} (hge : n ≥ 100) (hlt : n < 200) :
    toBcd (n % 100) = (toBcd n + 0x60) % 256 := by
  unfold toBcd
  omega

theorem bcdValue_lt {v : Nat} (h : IsPackedBcd v) : bcdValue v < 100 := by
  obtain ⟨-, hhi, hlo⟩ := h
  unfold bcdValue
  omega

section BcdSum
variable {s : State} {x y k : Nat} (hx : IsPackedBcd x) (hy : IsPackedBcd y) (hk : k ≤ 1)
  (ha : s.state.a.toNat = (x + y + k) % 256)
include hx hy hk ha

/-- The low condition after a packed-BCD addition says that the low digits and `k` sum above 9. -/
theorem lowTooLarge_iff_digits (hac : s.state.flags.auxCarry = decide (x % 16 + y % 16 + k > 0x0F)) :
    LowTooLarge s.state.a.toNat s.state.flags.auxCarry ↔ x % 16 + y % 16 + k > 9 := by
  obtain ⟨-, -, hxlo⟩ := hx
  obtain ⟨-, -, hylo⟩ := hy
  rw [LowTooLarge, hac, decide_eq_true_eq, ha]
  omega

/-- The low correction is 6 where the low decimal digits carry. -/
theorem lowCorrection_of_bcdSum (hac : s.state.flags.auxCarry = decide (x % 16 + y % 16 + k > 0x0F)) :
    lowCorrection s.state.a s.state.flags.auxCarry = 6 * ((x % 16 + y % 16 + k) / 10) := by
  have hiff := lowTooLarge_iff_digits hx hy hk ha hac
  obtain ⟨-, -, hxlo⟩ := hx
  obtain ⟨-, -, hylo⟩ := hy
  by_cases hlow : LowTooLarge s.state.a.toNat s.state.flags.auxCarry
  · have hsum := hiff.mp hlow
    rw [lowCorrection_of_lowTooLarge hlow]
    omega
  · have hsum := mt hiff.mpr hlow
    rw [lowCorrection_of_not_lowTooLarge hlow]
    omega

/-- The high condition after a packed-BCD addition says that the decimal sum is at least 100. -/
theorem high_iff_bcdSum (hcy : s.state.flags.carry = decide (x + y + k ≥ 256)) :
    (s.state.flags.carry = true ∨ s.state.a.toNat > 0x99) ↔ bcdValue x + bcdValue y + k ≥ 100 := by
  obtain ⟨-, hxhi, hxlo⟩ := hx
  obtain ⟨-, hyhi, hylo⟩ := hy
  rw [hcy, decide_eq_true_eq, ha, bcdValue, bcdValue]
  omega

variable (hcy : s.state.flags.carry = decide (x + y + k ≥ 256))
include hcy

theorem invoke_carry_of_bcdSum :
    s.invoke.state.flags.carry = decide (bcdValue x + bcdValue y + k ≥ 100) := by
  rw [Bool.eq_iff_iff, decide_eq_true_eq, s.invoke_carry_iff]
  exact high_iff_bcdSum hx hy hk ha hcy

theorem invoke_a_of_bcdSum (hac : s.state.flags.auxCarry = decide (x % 16 + y % 16 + k > 0x0F)) :
    s.invoke.state.a.toNat = toBcd ((bcdValue x + bcdValue y + k) % 100) := by
  have hlow := lowCorrection_of_bcdSum hx hy hk ha hac
  have hiff := high_iff_bcdSum hx hy hk ha hcy
  have hsum := toBcd_add_bcdValue x y k
  by_cases hhigh : s.state.flags.carry = true ∨ s.state.a.toNat > 0x99
  · have hlt : bcdValue x + bcdValue y + k < 200 := by
      have hxlt := bcdValue_lt hx
      have hylt := bcdValue_lt hy
      omega
    rw [s.invoke_a_toNat_of_high hhigh, toBcd_mod_hundred (hiff.mp hhigh) hlt, hsum, hlow, ha]
    omega
  · have hbinary : ¬ x + y + k ≥ 256 := fun h => hhigh (.inl (hcy.trans (decide_eq_true h)))
    rw [s.invoke_a_toNat_of_not_high hhigh, Nat.mod_eq_of_lt (Nat.not_le.mp (mt hiff.mpr hhigh)), hsum, hlow, ha,
      Nat.mod_eq_of_lt (Nat.not_le.mp hbinary)]

end BcdSum

/-! ### R34: the outputs are a function of the four inputs -/

section Inputs
variable {Id : Type} {r r' : Cpu Id}

theorem daaInputs_eq (ha : r.state.a = r'.state.a) (hcy : r.state.flags.carry = r'.state.flags.carry)
    (hac : r.state.flags.auxCarry = r'.state.flags.auxCarry) (hcycles : r.state.cycles = r'.state.cycles) :
    r.daaInputs = r'.daaInputs := by
  simp [Cpu.daaInputs, ha, hcy, hac, hcycles]

theorem Cpu.daa_a (r : Cpu Id) : r.daa.state.a = r.daaInputs.outputs.a := rfl

theorem Cpu.daa_flags (r : Cpu Id) : r.daa.state.flags = r.daaInputs.outputs.flags := rfl

end Inputs

/-! ### R34: each of the four inputs matters -/

section Edits
variable (s : State) {f : Field}

theorem read_setReg_of_ne (q : Reg) (v : Byte) (h : f ≠ .reg q) : (Edit.apply (.setReg q v) s).read f = s.read f := by
  cases f with
  | reg p =>
    have hp : p ≠ q := fun e => h (congrArg Field.reg e)
    exact congrArg FieldValue.byte (CpuState.readReg_writeReg_other s.state v hp)
  | flag _ | stackPointer | programCounter | cycles => simp [Edit.apply, State.read]
  | id | opcode => rfl

theorem read_setFlag_of_ne (g : Flag) (v : Bool) (h : f ≠ .flag g) :
    (Edit.apply (.setFlag g v) s).read f = s.read f := by
  cases f with
  | flag k =>
    have hk : k ≠ g := fun e => h (congrArg Field.flag e)
    exact congrArg FieldValue.bool (CpuFlags.read_write_other s.state.flags v hk)
  | reg p => cases p <;> rfl
  | stackPointer | programCounter | cycles | id | opcode => rfl

theorem read_setCycles_of_ne (v : Word64) (h : f ≠ .cycles) : (Edit.apply (.setCycles v) s).read f = s.read f := by
  cases f with
  | cycles => exact absurd rfl h
  | reg p => cases p <;> rfl
  | flag _ | stackPointer | programCounter | id | opcode => rfl

end Edits

/-! ### S1 to S3 -/

/-- DAA's accumulator and flags do not depend on the cycle counter: they are those of the closed input with counter 0. -/
theorem exec_daa_of_inputs {s : State} {a result : Byte} {cy ac : Bool} {flags : CpuFlags} (ha : s.state.a = a)
    (hcy : s.state.flags.carry = cy) (hac : s.state.flags.auxCarry = ac)
    (hresult : (DaaInputs.outputs ⟨a, cy, ac, 0⟩).a = result)
    (hflags : (DaaInputs.outputs ⟨a, cy, ac, 0⟩).flags = flags) :
    ∃ t, exec .daa s = .next t ∧ t.state.a = result ∧ t.state.flags = flags := by
  subst ha hcy hac
  exact ⟨_, exec_daa_eq s, hresult, hflags⟩

end Sys2Proof.Machine

namespace Sys2Proof

open Sys2Proof.Machine Sys2Proof.Safety

/-- Settles O17: the model's correction is the one the four cases name. -/
theorem correctionHasFourValues : Obligations.CorrectionHasFourValues := isCorrection_correction

/-- Settles O18: R61's nibble condition is the comparison with 0x99, and a byte is at most 0xFF. -/
theorem carryClosedForm : Obligations.CarryClosedForm := by
  intro s
  refine ⟨_, exec_daa_eq_invoke s, s.invoke_carry, ?_⟩
  have hbyte := s.state.a.isLt
  rw [highNibblesTooLarge_iff]
  omega

/-- Settles O19: the flag's closed form, in which the input flag does not occur. -/
theorem auxCarryClosedForm : Obligations.AuxCarryClosedForm :=
  fun s => ⟨_, exec_daa_eq_invoke s, s.invoke_auxCarry⟩

/-- Settles O20: a wrap needs the high correction, which forces carry; a set input carry forces it without a wrap. -/
theorem wrapImpliesCarry : Obligations.WrapImpliesCarry := by
  refine ⟨fun s c hc hwrap => ⟨_, exec_daa_eq_invoke s, ?_⟩, ?_⟩
  · exact s.toCpu.daa_carry_iff.mpr (highTooLarge_of_wrap hc hwrap)
  · exact ⟨carryWithoutWrap, 0x60, _, isCorrection_carryWithoutWrap, by decide, exec_daa_eq_invoke _,
      carryWithoutWrap.invoke_carry_iff.mpr (.inl rfl)⟩

/-- Settles O34: the sum of the first stage decides the second as the accumulator decides the high correction. -/
theorem twoStageCorrectionEquivalent : Obligations.TwoStageCorrectionEquivalent :=
  fun s _ hv => ⟨_, exec_daa_eq_invoke s, invoke_carry_iff_of_firstStage hv, invoke_a_toNat_of_secondStage hv,
    invoke_a_toNat_of_not_secondStage hv⟩

/-- Settles O21: the two corrections are the decimal carries of the two digits. -/
theorem packedBcdSumCorrected : Obligations.PackedBcdSumCorrected :=
  fun s _ _ _ hx hy hk ha hcy hac => ⟨_, exec_daa_eq_invoke s, invoke_a_of_bcdSum hx hy hk ha hcy hac,
    invoke_carry_of_bcdSum hx hy hk ha hcy⟩

/-- Settles O15: equal inputs have equal outputs. -/
theorem outputsDependOnFourInputs : Obligations.OutputsDependOnFourInputs := by
  intro s s' ha hcy hac hcycles
  have hinputs := daaInputs_eq (r := s.toCpu) (r' := s'.toCpu) ha hcy hac hcycles
  refine ⟨_, _, exec_daa_eq s, exec_daa_eq s', ?_, ?_, ?_⟩
  · rw [Cpu.daa_a, Cpu.daa_a, hinputs]
  · rw [Cpu.daa_cycles, Cpu.daa_cycles, hcycles]
  · rw [Cpu.daa_flags, Cpu.daa_flags, hinputs]

/-- Settles O16: the reset record and an edit of one of its four inputs. Accumulator 0x9A sets carry; a set carry adds 0x60 and
a set auxCarry 0x06 to the accumulator; the counter counts on from its input. -/
theorem eachOfFourInputsMatters : Obligations.EachOfFourInputsMatters := by
  intro f hf
  simp only [List.mem_cons, List.not_mem_nil, or_false] at hf
  obtain rfl | rfl | rfl | rfl := hf
  · exact ⟨_, State.reset, _, _, fun _ => read_setReg_of_ne State.reset .a 0x9A, exec_daa_eq _, exec_daa_eq _,
      .flag .carry, by decide, by decide, by decide⟩
  · exact ⟨_, State.reset, _, _, fun _ => read_setFlag_of_ne State.reset .carry true, exec_daa_eq _, exec_daa_eq _,
      .reg .a, by decide, by decide, by decide⟩
  · exact ⟨_, State.reset, _, _, fun _ => read_setFlag_of_ne State.reset .auxCarry true, exec_daa_eq _, exec_daa_eq _,
      .reg .a, by decide, by decide, by decide⟩
  · exact ⟨_, State.reset, _, _, fun _ => read_setCycles_of_ne State.reset 1, exec_daa_eq _, exec_daa_eq _,
      .cycles, by decide, by decide, by decide⟩

/-- Settles O39: each scenario is one closed input of the transform, and S4 is the counter at its largest value. -/
theorem sourceScenarios : Obligations.SourceScenarios :=
  ⟨fun _ ha hcy hac => exec_daa_of_inputs ha hcy hac (by decide) (by decide),
    fun _ ha hcy hac => exec_daa_of_inputs ha hcy hac (by decide) (by decide),
    fun _ ha hcy hac => exec_daa_of_inputs ha hcy hac (by decide) (by decide),
    fun s hmax => ⟨_, exec_daa_eq s, (s.toCpu.daa_cycles.trans (congrArg nextCycles hmax)).trans nextCycles_allOnes⟩⟩

end Sys2Proof
end

section
/-! PROOFS of the model statements on repeated invocations: what one invocation keeps (10_state.md R24 to R28), the low digit
as a machine of its own, runs of any length, and how many inputs a second invocation changes (40_daa.md R77). -/

namespace Sys2Proof.Machine

open Sys2Proof.Safety

/-! ### The low digit is a machine of its own -/

theorem lowCorrection_eq_ite (a : Byte) (ac : Bool) :
    lowCorrection a ac = if ac || decide (a.toNat % 16 > 9) then 6 else 0 := by
  rw [← lsn_toNat]
  rfl

/-- The high correction does not reach the low digit. -/
theorem State.invoke_a_mod_sixteen (s : State) :
    s.invoke.state.a.toNat % 16
      = (s.state.a.toNat % 16 + lowCorrection s.state.a s.state.flags.auxCarry) % 16 := by
  rw [s.invoke_a_toNat, ← correction_mod_sixteen s.state.a s.state.flags.carry s.state.flags.auxCarry]
  omega

/-- The low digit and auxCarry of a state. -/
def State.lowDigit (s : State) : Nat × Bool := (s.state.a.toNat % 16, s.state.flags.auxCarry)

/-- What one invocation does to the low digit and auxCarry, whatever the high digit and carry are (40_daa.md R60, R74). -/
def lowDigitStep (p : Nat × Bool) : Nat × Bool :=
  ((p.1 + if p.2 || decide (p.1 > 9) then 6 else 0) % 16, decide (p.1 > 9))

theorem lowDigit_invoke (s : State) : s.invoke.lowDigit = lowDigitStep s.lowDigit := by
  have hdigit := s.invoke_a_mod_sixteen
  rw [lowCorrection_eq_ite] at hdigit
  exact Prod.ext hdigit s.invoke_auxCarry

theorem lowDigit_iterate (k : Nat) (s : State) :
    (State.invoke^[k] s).lowDigit = lowDigitStep^[k] s.lowDigit :=
  Function.Semiconj.iterate_right lowDigit_invoke k s

/-- Five steps end every low digit's corrections. A digit of 8 with auxCarry set needs all five: 14, 4, 10, 0, 6. -/
theorem lowDigitStep_iterate_five : ∀ n < 16, ∀ ac : Bool,
    (lowDigitStep^[5] (n, ac)).1 ≤ 9 ∧ (lowDigitStep^[5] (n, ac)).2 = false := by
  decide

/-! ### What one invocation keeps -/

/-- The low correction of a digit above 9 leaves at most 5 of it. -/
theorem State.invoke_lowDigit_le_of_auxCarry (s : State) (h : s.invoke.state.flags.auxCarry = true) :
    s.invoke.state.a.toNat % 16 ≤ 5 := by
  rw [s.invoke_auxCarry, decide_eq_true_eq] at h
  rw [s.invoke_a_mod_sixteen, lowCorrection_of_lowTooLarge (.inr h)]
  omega

theorem setFlagsTruthful_invoke (s : State) : SetFlagsTruthful s.invoke :=
  ⟨s.toCpu.daa_sign_iff.mp, s.toCpu.daa_zero_iff.mp, s.toCpu.daa_parity_iff.mp, s.invoke_lowDigit_le_of_auxCarry⟩

/-- Without the high correction the accumulator was at most 0x99 and gained at most 6. -/
theorem State.invoke_carry_or_le (s : State) : s.invoke.state.flags.carry = true ∨ s.invoke.state.a.toNat ≤ 0x9F := by
  by_cases hhigh : s.state.flags.carry = true ∨ s.state.a.toNat > 0x99
  · exact .inl (s.invoke_carry_iff.mpr hhigh)
  · have hlow := lowCorrection_eq_zero_or_six s.state.a s.state.flags.auxCarry
    have ha : ¬ s.state.a.toNat > 0x99 := fun h => hhigh (.inr h)
    right
    rw [s.invoke_a_toNat_of_not_high hhigh]
    omega

theorem State.invoke_cycles_toNat (s : State) :
    s.invoke.state.cycles.toNat = (s.state.cycles.toNat + 4) % 2 ^ 64 :=
  (congrArg BitVec.toNat s.toCpu.daa_cycles).trans (nextCycles_toNat _)

theorem samePassthrough_refl (s : State) : SamePassthrough s s := by
  simp [SamePassthrough]

theorem samePassthrough_trans {s t u : State} (hst : SamePassthrough s t) (htu : SamePassthrough t u) :
    SamePassthrough s u := by
  obtain ⟨hb, hc, hd, he, hh, hl, hsp, hpc, hid, hop⟩ := hst
  simpa only [SamePassthrough, hb, hc, hd, he, hh, hl, hsp, hpc, hid, hop] using htu

theorem samePassthrough_invoke (s : State) : SamePassthrough s s.invoke := s.samePassthrough_daa

/-! ### Runs of any length -/

theorem iterate_cycles_toNat (k : Nat) (s : State) :
    (State.invoke^[k] s).state.cycles.toNat = (s.state.cycles.toNat + 4 * k) % 2 ^ 64 := by
  induction k with
  | zero => exact (Nat.mod_eq_of_lt s.state.cycles.isLt).symm
  | succ k ih =>
    rw [Function.iterate_succ_apply', State.invoke_cycles_toNat, ih]
    omega

theorem samePassthrough_iterate (k : Nat) (s : State) : SamePassthrough s (State.invoke^[k] s) :=
  Function.Iterate.rec (SamePassthrough s) (samePassthrough_refl s)
    (fun t h => samePassthrough_trans h (samePassthrough_invoke t)) k

theorem carry_iterate {s : State} (h : s.state.flags.carry = true) (k : Nat) :
    (State.invoke^[k] s).state.flags.carry = true :=
  Function.Iterate.rec (fun t : State => t.state.flags.carry = true) h (fun t ht => t.invoke_carry_iff.mpr (.inl ht)) k

theorem settled_or_carryLatched_iterate {s : State} (h : Settled s ∨ CarryLatched s) (k : Nat) :
    Settled (State.invoke^[k] s) ∨ CarryLatched (State.invoke^[k] s) :=
  Function.Iterate.rec (fun t => Settled t ∨ CarryLatched t) h (fun _ => Or.imp settled_invoke carryLatched_invoke) k

/-- Where no low correction is due, the carry decides between the two regimes. -/
theorem settled_or_carryLatched {s : State} (hdigit : s.state.a.toNat % 16 ≤ 9) (hac : s.state.flags.auxCarry = false)
    (hbound : s.state.flags.carry = true ∨ s.state.a.toNat ≤ 0x9F) : Settled s ∨ CarryLatched s := by
  have hbyte := s.state.a.isLt
  cases hcy : s.state.flags.carry with
  | true => exact .inr ⟨hcy, hac, hdigit⟩
  | false =>
    have ha : s.state.a.toNat ≤ 0x9F := hbound.resolve_left (Bool.eq_false_iff.mp hcy)
    exact .inl ⟨⟨hbyte, by omega, hdigit⟩, hcy, hac⟩

theorem settled_or_carryLatched_iterate_five (s : State) :
    Settled (State.invoke^[5] s) ∨ CarryLatched (State.invoke^[5] s) := by
  have hdone := lowDigitStep_iterate_five (s.state.a.toNat % 16) (Nat.mod_lt _ (by decide)) s.state.flags.auxCarry
  rw [← State.lowDigit, ← lowDigit_iterate] at hdone
  obtain ⟨hdigit, hac⟩ := hdone
  have hbound := (State.invoke^[4] s).invoke_carry_or_le
  rw [← Function.iterate_succ_apply' State.invoke 4 s] at hbound
  exact settled_or_carryLatched hdigit hac hbound

/-! ### R77: how many inputs a second invocation changes -/

/-- Only a settled record keeps its accumulator: every correction but 0x00 changes a byte. -/
theorem State.invoke_a_eq_iff (s : State) : s.invoke.state.a = s.state.a ↔ Settled s := by
  refine ⟨fun h => ?_, invoke_a_of_settled⟩
  have hbyte := s.state.a.isLt
  have hsum := s.invoke_a_toNat
  rw [h] at hsum
  obtain ⟨hlow, hhigh, -⟩ | ⟨-, -, hc⟩ | ⟨-, -, hc⟩ | ⟨-, -, hc⟩ :=
    isCorrection_correction s.state.a s.state.flags.carry s.state.flags.auxCarry
  · rw [highTooLarge_iff] at hhigh
    rw [LowTooLarge] at hlow
    push Not at hlow hhigh
    exact ⟨⟨hbyte, by omega, by omega⟩, Bool.eq_false_iff.mpr hhigh.1, Bool.eq_false_iff.mpr hlow.1⟩
  all_goals
    rw [hc] at hsum
    omega

/-- The records one invocation settles: no carry, and a packed-BCD accumulator to whose low digit the correction asked for by
a set auxCarry can be added. -/
theorem State.settled_invoke_iff (s : State) :
    Settled s.invoke ↔ s.state.flags.carry = false ∧ s.state.a.toNat / 16 ≤ 9 ∧
      s.state.a.toNat % 16 ≤ if s.state.flags.auxCarry then 3 else 9 := by
  by_cases hhigh : s.state.flags.carry = true ∨ s.state.a.toNat > 0x99
  · have hcy := s.invoke_carry_iff.mpr hhigh
    constructor
    · rintro ⟨-, hclear, -⟩
      exact absurd (hcy.symm.trans hclear) (by decide)
    · rintro ⟨hclear, hhi, hlo⟩
      have ha := hhigh.resolve_left (Bool.eq_false_iff.mp hclear)
      split at hlo <;> omega
  · have hclear := Bool.eq_false_iff.mpr (mt s.invoke_carry_iff.mp hhigh)
    have ha := s.invoke_a_toNat_of_not_high hhigh
    rw [lowCorrection_eq_ite] at ha
    push Not at hhigh
    obtain ⟨hcy, hle⟩ := hhigh
    rw [Settled, IsPackedBcd, s.invoke_auxCarry, decide_eq_false_iff_not]
    simp only [hclear, Bool.eq_false_iff.mpr hcy, true_and]
    cases hac : s.state.flags.auxCarry with
    | true =>
      have hsum : s.invoke.state.a.toNat = s.state.a.toNat + 6 := by simpa [hac] using ha
      simp only [if_true]
      omega
    | false =>
      simp only [hac, Bool.false_or, decide_eq_true_eq] at ha
      simp only [Bool.false_eq_true, if_false]
      split at ha <;> omega

/-- The record `s` with the `n`-th of the 1024 combinations of accumulator, carry and auxCarry. -/
def State.withCombination (s : State) (n : Nat) : State :=
  { s with state := { s.state with
      a := BitVec.ofNat 8 (n / 4)
      flags := { s.state.flags with carry := decide (n % 4 / 2 = 1), auxCarry := decide (n % 2 = 1) } } }

/-- The combinations that one invocation settles, by number. -/
def settlesCombination (n : Nat) : Bool :=
  decide (n % 4 / 2 ≠ 1 ∧ n / 4 / 16 ≤ 9 ∧ n / 4 % 16 ≤ if n % 2 = 1 then 3 else 9)

theorem settled_invoke_withCombination_iff (s : State) {n : Nat} (hn : n < 1024) :
    Settled (s.withCombination n).invoke ↔ settlesCombination n = true := by
  have ha : (s.withCombination n).state.a.toNat = n / 4 := Nat.mod_eq_of_lt (by omega)
  rw [State.settled_invoke_iff, ha]
  simp [settlesCombination, State.withCombination]

theorem countP_not_settlesCombination : (List.range 1024).countP (fun n => !settlesCombination n) = 884 := by
  decide +kernel

theorem secondInvocation_changes_iff (s : State) {n : Nat} (hn : n < 1024) :
    (s.withCombination n).invoke.invoke.state.a ≠ (s.withCombination n).invoke.state.a ↔
      (!settlesCombination n) = true := by
  rw [Ne, State.invoke_a_eq_iff, settled_invoke_withCombination_iff s hn]
  simp

end Sys2Proof.Machine

namespace Sys2Proof

open Sys2Proof.Machine Sys2Proof.Safety

/-- Settles O30: every invocation makes the four flags true of its result. -/
theorem setFlagsTruthfulKept : Obligations.SetFlagsTruthfulKept := by
  intro s t _ hstep
  cases eq_invoke_of_step hstep
  exact setFlagsTruthful_invoke s

/-- Settles O28: three inductions over the length of the run. -/
theorem runCountsCycles : Obligations.RunCountsCycles :=
  fun k s => ⟨_, core_run_eq_iterate k s, iterate_cycles_toNat k s, samePassthrough_iterate k s,
    fun h => carry_iterate h k⟩

/-- Settles O29: five invocations end the low digit's corrections, and both regimes are kept. -/
theorem fiveInvocationsReachRegime : Obligations.FiveInvocationsReachRegime := by
  intro k s hk
  obtain ⟨m, rfl⟩ := Nat.exists_eq_add_of_le' hk
  refine ⟨_, core_run_eq_iterate _ s, ?_⟩
  rw [Function.iterate_add_apply]
  exact settled_or_carryLatched_iterate (settled_or_carryLatched_iterate_five s) m

/-- Settles O22: a second invocation changes the accumulator exactly where the first does not settle the record. The other 140
combinations are the 100 packed-BCD bytes without flags and the 40 with auxCarry and a low digit of at most 3. -/
theorem secondDaaChangesAccumulator : Obligations.SecondDaaChangesAccumulator := by
  intro s
  calc (List.range 1024).countP (fun n => decide
        ((s.withCombination n).invoke.invoke.state.a ≠ (s.withCombination n).invoke.state.a))
    _ = (List.range 1024).countP (fun n => !settlesCombination n) := by
        refine List.countP_congr fun n hn => ?_
        rw [decide_eq_true_eq]
        exact secondInvocation_changes_iff s (List.mem_range.mp hn)
    _ = 884 := countP_not_settlesCombination

/-- Settles O33: the reset record has no flag set, and its accumulator is 0. -/
theorem resetMeetsInvariants : Obligations.ResetMeetsInvariants :=
  ⟨⟨nofun, nofun, nofun, nofun⟩, ⟨by decide, by decide, by decide⟩, rfl, rfl⟩

end Sys2Proof
end

section
/-! PROOFS of the statements on the caller and the pool (10_state.md section 7, 20_memory.md section 4,
70_reset_and_hazards.md sections 3 and 4): both as folds of one invocation. -/

namespace Sys2Proof.Machine

open Sys2Proof.Safety

/-! ### Calls are a fold -/

/-- The state after one call: its edits, then one invocation. -/
def State.afterCall (s : State) (c : Call) : State := (Call.apply c s).invoke

theorem runCalls_eq_foldl (cs : List Call) (s : State) : runCalls cs s = .next (cs.foldl State.afterCall s) := by
  induction cs generalizing s with
  | nil => exact runCalls_nil s
  | cons c cs ih => exact (runCalls_cons c cs s).trans (ih (s.afterCall c))

theorem runCalls_append (xs ys : List Call) (s : State) :
    runCalls (xs ++ ys) s = runCalls ys (xs.foldl State.afterCall s) := by
  rw [runCalls_eq_foldl, runCalls_eq_foldl, List.foldl_append]

/-- A supplied record replaces whatever the caller held. -/
theorem runCalls_supply (input s : State) : runCalls [[.supply input]] s = step input := by
  rw [runCalls_eq_foldl, step_eq_invoke]
  rfl

/-! ### A schedule runs each slot by itself -/

theorem length_runSchedule (schedule : List Nat) (pool : List Slot) :
    (runSchedule schedule pool).length = pool.length := by
  induction schedule generalizing pool with
  | nil => rfl
  | cons j schedule ih => rw [runSchedule_cons, ih, List.length_modify]

theorem getElem?_runSchedule_of_notMem {schedule : List Nat} {i : Nat} (hi : i ∉ schedule) (pool : List Slot) :
    (runSchedule schedule pool)[i]? = pool[i]? := by
  induction schedule generalizing pool with
  | nil => rfl
  | cons j schedule ih =>
    obtain ⟨hne, hrest⟩ := not_or.mp (mt List.mem_cons.mpr hi)
    rw [runSchedule_cons, ih hrest, List.getElem?_modify_ne _ _ (Ne.symm hne)]

/-- Running a slot a second time changes nothing. -/
theorem map_run_getElem?_modify (pool : List Slot) (i j : Nat) :
    (pool.modify j Slot.run)[i]?.map Slot.run = pool[i]?.map Slot.run := by
  by_cases h : j = i
  · subst h
    rw [List.getElem?_modify_eq, Option.map_eq_map, Option.map_map]
    exact congrArg (Option.map · _) (funext Slot.run_run)
  · rw [List.getElem?_modify_ne _ _ h]

/-- However often a schedule names a slot, it runs once. -/
theorem getElem?_runSchedule_of_mem {schedule : List Nat} {i : Nat} (hi : i ∈ schedule) (pool : List Slot) :
    (runSchedule schedule pool)[i]? = pool[i]?.map Slot.run := by
  induction schedule generalizing pool with
  | nil => exact absurd hi List.not_mem_nil
  | cons j schedule ih =>
    rw [runSchedule_cons]
    by_cases hrest : i ∈ schedule
    · rw [ih hrest, map_run_getElem?_modify]
    · obtain rfl : i = j := (List.mem_cons.mp hi).resolve_right hrest
      rw [getElem?_runSchedule_of_notMem hrest, List.getElem?_modify_eq]
      rfl

end Sys2Proof.Machine

namespace Sys2Proof

open Sys2Proof.Machine Sys2Proof.Safety

/-- Settles O24: a scheduled slot runs once, on its own input record, and any other slot is left alone. -/
theorem concurrentInvocationsIndependent : Obligations.ConcurrentInvocationsIndependent := by
  intro schedule inputs i s hs
  have hslot : (inputs.map Slot.waiting)[i]? = some (.waiting s) := by rw [List.getElem?_map, hs, Option.map_some]
  refine ⟨(length_runSchedule _ _).trans (List.length_map _), fun hi => ?_, fun hi => ?_⟩
  · rw [getElem?_runSchedule_of_mem hi, hslot]
    rfl
  · rw [getElem?_runSchedule_of_notMem hi, hslot]

/-- Settles O25: a fold over two lists is two folds. -/
theorem callsCompose : Obligations.CallsCompose :=
  fun xs ys s => ⟨_, runCalls_eq_foldl xs s, runCalls_append xs ys s⟩

/-- Settles O26: steps, runs and calls are functions on states. -/
theorem everyInvocationEnds : Obligations.EveryInvocationEnds :=
  ⟨step_completes, fun k s => ⟨_, core_run_eq_iterate k s⟩, fun cs s => ⟨_, runCalls_eq_foldl cs s⟩⟩

/-- Settles O27: the earlier calls leave one state, which the supplied record replaces. -/
theorem nothingRetainedBetweenInvocations : Obligations.NothingRetainedBetweenInvocations := by
  intro before s input
  rw [runCalls_append, runCalls_supply]

end Sys2Proof
end

section
/-! PROOFS of the statements on the record's fields (10_state.md R33, sections 6 and 7) and on the decoder
(30_encoding.md section 1). -/

namespace Sys2Proof.Machine

/-! ### The fields are the record -/

theorem CpuFlags.ext_read {f f' : CpuFlags} (h : ∀ g, f.read g = f'.read g) : f = f' := by
  cases f
  cases f'
  simpa [CpuFlags.read] using And.intro (h .sign) ⟨h .zero, h .auxCarry, h .parity, h .carry⟩

/-- Two state parts with the same registers, pointers, counter and flags are equal. -/
theorem CpuState.ext_readReg {c c' : CpuState} (hreg : ∀ r, c.readReg r = c'.readReg r)
    (hsp : c.stackPointer = c'.stackPointer) (hpc : c.programCounter = c'.programCounter)
    (hcycles : c.cycles = c'.cycles) (hflags : c.flags = c'.flags) : c = c' := by
  have ha := hreg .a
  have hb := hreg .b
  have hc := hreg .c
  have hd := hreg .d
  have he := hreg .e
  have hh := hreg .h
  have hl := hreg .l
  cases c
  cases c'
  simp_all [CpuState.readReg]

theorem State.ext_read {s t : State} (h : ∀ f, s.read f = t.read f) : s = t := by
  have hstate : s.state = t.state :=
    CpuState.ext_readReg (fun r => FieldValue.byte.inj (h (.reg r))) (FieldValue.word16.inj (h .stackPointer))
      (FieldValue.word16.inj (h .programCounter)) (FieldValue.word64.inj (h .cycles))
      (CpuFlags.ext_read fun g => FieldValue.bool.inj (h (.flag g)))
  obtain ⟨⟨_, _, _⟩⟩ := s
  obtain ⟨⟨_, _, _⟩⟩ := t
  cases hstate
  cases FieldValue.token.inj (h .id)
  cases FieldValue.byte.inj (h .opcode)
  rfl

theorem Reg.mem_all (r : Reg) : r ∈ Reg.all := by cases r <;> decide

theorem Flag.mem_all (g : Flag) : g ∈ Flag.all := by cases g <;> decide

theorem Field.mem_all (f : Field) : f ∈ Field.all := by
  cases f with
  | reg r => simp [Field.all, Reg.mem_all]
  | flag g => simp [Field.all, Flag.mem_all]
  | stackPointer | programCounter | cycles | id | opcode => simp [Field.all]

theorem nodup_map_path : (Field.all.map Field.path).Nodup := by decide +kernel

theorem Field.path_injective : Function.Injective Field.path :=
  fun f g h => List.inj_on_of_nodup_map nodup_map_path f.mem_all g.mem_all h

/-! ### The decoder -/

/-- What a step runs is what the record's opcode decodes to. -/
theorem step_eq_exec_decodeOpcode (s : State) : step s = exec (decodeOpcode s.opcode) s := rfl

theorem invoke_programCounter (s : State) : s.invoke.state.programCounter = s.state.programCounter :=
  Cpu.writeOutputs_programCounter _ _

/-- The words that decode are the values of one byte. -/
theorem decodeTableWord_eq_some_iff (nbits w : Nat) (i : Instr) :
    decodeTableWord nbits w = some i ↔ (nbits ≤ 8 ∧ w < 2 ^ nbits) ∧ decodeOpcode (BitVec.ofNat 8 w) = i := by
  unfold decodeTableWord decodeWord
  by_cases h : nbits ≤ 8 ∧ w < 2 ^ nbits
  · simp [h]
  · simp [h]

theorem withFetchWord_opcode {nbits w : Nat} (s : State) (h : w < 2 ^ nbits) :
    (s.withFetchWord nbits w).opcode = BitVec.ofNat 8 w := by
  rw [State.withFetchWord, State.withOpcode_opcode, Nat.mod_eq_of_lt h]

/-- Every row leaves every bit open, so that the encoding is the open bits. -/
theorem encode_eq (i : Instr) (u : Byte) : encode i u = u := by
  cases i with
  | daa =>
    have hopen : ~~~Instr.mask .daa = BitVec.allOnes 8 := by decide
    rw [encode, hopen, BitVec.and_allOnes]
    exact BitVec.zero_or

end Sys2Proof.Machine

namespace Sys2Proof

open Sys2Proof.Machine

/-- Settles O38: a record is built from its fields, and the port's table lists each under a path of its own. -/
theorem fieldsAreTheWholeState : Obligations.FieldsAreTheWholeState :=
  ⟨fun _ _ => State.ext_read, Field.mem_all, fun _ _ h => Field.path_injective h, by decide⟩

/-- Settles O2: a step is exec of the decoded instruction, and the transform writes neither field. -/
theorem stepRunsDecodedInstruction : Obligations.StepRunsDecodedInstruction := by
  intro s
  refine ⟨rfl, step_eq_exec_decodeOpcode s, fun t hstep => ?_⟩
  cases eq_invoke_of_step hstep
  exact ⟨invoke_programCounter s, s.toCpu.daa_opcode⟩

/-- Settles O35: the fixed bits by the row's own statement, the round trip since the decoder is constant and no bit is fixed. -/
theorem decodeEncodeAgree : Obligations.DecodeEncodeAgree := by
  refine ⟨fun i u hi => ?_, fun op => ⟨rfl, encode_eq _ op⟩⟩
  cases i with
  | daa => exact ⟨decodeOpcode_eq_daa _, (Laws.RowBits.daa hi u).1⟩

/-- Settles O36: three words of one byte decode, and neither of the other two fits one. -/
theorem decodeWrittenWords : Obligations.DecodeWrittenWords := by
  unfold Obligations.DecodeWrittenWords
  decide

/-- Settles O37: a word that decodes fits its bits and one byte, so placing it loses nothing. -/
theorem placedWordRuns : Obligations.PlacedWordRuns := by
  intro s nbits w i hdecode
  obtain ⟨⟨hbits, hw⟩, hi⟩ := (decodeTableWord_eq_some_iff nbits w i).mp hdecode
  have hopcode := withFetchWord_opcode s hw
  have hbyte : w < 2 ^ 8 := hw.trans_le (Nat.pow_le_pow_right (by decide) hbits)
  refine ⟨?_, ?_, State.withOpcode_state _ _, State.withOpcode_id _ _⟩
  · rw [hopcode, BitVec.toNat_ofNat, Nat.mod_eq_of_lt hbyte]
  · rw [step_eq_exec_decodeOpcode, hopcode, hi]

end Sys2Proof
end
